-- ==== Sys2Proof/Word.lean ====
section
/-! DEFINITION. The words of the machine: bytes, 16-bit words, 24-bit addresses, and the two run-time widths. -/

namespace Sys2Proof

/-- One byte of memory, of an instruction or of an 8-bit register. -/
abbrev Byte := BitVec 8

/-- A 16-bit register, operand or offset. -/
abbrev Word := BitVec 16

/-- An address `bank:offset` (20_memory.md R60): the bank in bits 23..16, the offset in bits 15..0.
On the 8-bit variants the bank is always 0. -/
abbrev Addr := BitVec 24

/-- The width of a data operation, chosen at run time by e, m and x (00_scope.md R9). -/
inductive Width where
  /-- 8 bits. -/
  | w8
  /-- 16 bits. -/
  | w16
  deriving DecidableEq, Repr

end Sys2Proof
end

