-- ==== Sys2Proof/Config.lean ====
section
/-! DEFINITION. What an implementation, a platform or a launch fixes (00_scope.md R5), and the free values. -/

namespace Sys2Proof

/-- The family member (00_scope.md R2): `v6502` covers the 6502 and 6510, `v65816` the 65816 and 65802 (D1). -/
inductive Variant where
  | v6502
  | v65C02
  | v65816
  deriving DecidableEq, Repr

/-- What stands at an address (20_memory.md R68). -/
inductive MemKind where
  /-- Reads give the byte last written, writes replace it. -/
  | ram
  /-- Reads give a fixed byte, writes have no effect. -/
  | rom
  /-- Reads give `any(8)`, writes have no effect. -/
  | unmapped
  /-- Reads and writes are calls to a platform function that the spec does not give. -/
  | device
  deriving DecidableEq, Repr

/-- A run of `size` addresses from `base` on, all of one kind. -/
structure Region where
  base : Nat
  size : Nat
  kind : MemKind
  deriving DecidableEq, Repr

/-- `MemoryMap` (20_memory.md R68, D5). The first region that holds an address gives its kind; an address that no
region holds is RAM. `banksAlias` is the 65802, whose bank byte does not leave the chip (R60). -/
structure MemoryMap where
  regions    : List Region
  banksAlias : Bool
  deriving DecidableEq, Repr

/-- `BLOCK_MOVE_OPERAND_ORDER` (47_miscellaneous.md R320, D20): which operand byte of MVN and MVP is the source bank. -/
inductive BlockMoveOrder where
  /-- `srcbk = o1`, `dstbk = o2`. -/
  | srcFirst
  /-- `dstbk = o1`, `srcbk = o2`. -/
  | dstFirst
  deriving DecidableEq, Repr

/-- The two index registers. -/
inductive IdxReg where
  | x
  | y
  deriving DecidableEq, Repr

/-- The parameters of 00_scope.md R5 that a launch fixes. The machine carries them in its state and no step changes
them, so a statement about every state is a statement about every launch. -/
structure Config where
  /-- `VARIANT` (R2). -/
  variant        : Variant
  /-- `MemoryMap` (R68). -/
  memMap         : MemoryMap
  /-- `BLOCK_MOVE_OPERAND_ORDER` (R320). -/
  blockMoveOrder : BlockMoveOrder
  /-- `LDX_INDEX` (44_registers.md R251, D19): the register that indexes opcodes 0xB6 and 0xBE. -/
  ldxIndex       : IdxReg
  deriving DecidableEq, Repr

/-- The parameters of `State.reset`. DESIGN CHOICE (unsafe, log 1, 2, 11): the launch is a V65816 whose memory is all
RAM, with the block-move operands in the order the source states. `ldxIndex` is the spec's decided value (log 12). -/
def Config.default : Config where
  variant        := .v65816
  memMap         := ⟨[], false⟩
  blockMoveOrder := .srcFirst
  ldxIndex       := .y

/-- `any(w)` (00_scope.md R12): the value of the `n`th free draw of a run, `w` bits wide. It has no body, so nothing can
be proved of the value (log 6). -/
opaque Config.freeValue (w n : Nat) : BitVec w

end Sys2Proof
end

