-- ==== Sys2Proof/Syntax.lean ====
section
/-! DEFINITION. The instructions: one constructor per row of spec/opcode_table.json, in the order of the opcode byte
(30_encoding.md R95), those with operand bytes first (Lean's compiler numbers at most 244 constructors with fields).
A constructor is named by its mnemonic and its addressing mode: `Imm` #const, `A` accumulator,
`Dp` dp, `DpX` dp,X, `DpY` dp,Y, `DpInd` (dp), `DpXInd` (dp,X), `DpIndY` (dp),Y, `DpIndLong` [dp], `DpIndLongY` [dp],Y,
`Abs` addr, `AbsX` addr,X, `AbsY` addr,Y, `Long` long, `LongX` long,X, `Sr` sr,S, `SrIndY` (sr,S),Y, `AbsInd` (addr),
`AbsXInd` (addr,X), `AbsIndLong` [addr]. `ldxDpIdx` and `ldxAbsIdx` are indexed by the register `LDX_INDEX` (R251). -/

namespace Sys2Proof

/-- An instruction with its operand bytes assembled as 30_encoding.md R93 says: `o1` a direct-page or stack offset, `a` a
16-bit address, `l` a 24-bit address, `k` an immediate constant (16 bits where its length depends on m or x, log 17),
`rel` a displacement as encoded, `sig` a signature byte. -/
inductive Instr where
  /-- 0x00 `BRK` (R310). -/
  | brk (sig : Byte)
  /-- 0x01 `ORA (dp,X)` (R184). -/
  | oraDpXInd (o1 : Byte)
  /-- 0x02 `COP const` (R311). -/
  | cop (sig : Byte)
  /-- 0x03 `ORA sr,S` (R184). -/
  | oraSr (o1 : Byte)
  /-- 0x04 `TSB dp` (R191). -/
  | tsbDp (o1 : Byte)
  /-- 0x05 `ORA dp` (R184). -/
  | oraDp (o1 : Byte)
  /-- 0x06 `ASL dp` (R186). -/
  | aslDp (o1 : Byte)
  /-- 0x07 `ORA [dp]` (R184). -/
  | oraDpIndLong (o1 : Byte)
  /-- 0x09 `ORA #const` (R184). -/
  | oraImm (k : Word)
  /-- 0x0C `TSB addr` (R191). -/
  | tsbAbs (a : Word)
  /-- 0x0D `ORA addr` (R184). -/
  | oraAbs (a : Word)
  /-- 0x0E `ASL addr` (R186). -/
  | aslAbs (a : Word)
  /-- 0x0F `ORA long` (R184). -/
  | oraLong (l : Addr)
  /-- 0x10 `BPL nearlabel` (R219). -/
  | bpl (rel : Byte)
  /-- 0x11 `ORA (dp),Y` (R184). -/
  | oraDpIndY (o1 : Byte)
  /-- 0x12 `ORA (dp)` (R184). -/
  | oraDpInd (o1 : Byte)
  /-- 0x13 `ORA (sr,S),Y` (R184). -/
  | oraSrIndY (o1 : Byte)
  /-- 0x14 `TRB dp` (R190). -/
  | trbDp (o1 : Byte)
  /-- 0x15 `ORA dp,X` (R184). -/
  | oraDpX (o1 : Byte)
  /-- 0x16 `ASL dp,X` (R186). -/
  | aslDpX (o1 : Byte)
  /-- 0x17 `ORA [dp],Y` (R184). -/
  | oraDpIndLongY (o1 : Byte)
  /-- 0x19 `ORA addr,Y` (R184). -/
  | oraAbsY (a : Word)
  /-- 0x1C `TRB addr` (R190). -/
  | trbAbs (a : Word)
  /-- 0x1D `ORA addr,X` (R184). -/
  | oraAbsX (a : Word)
  /-- 0x1E `ASL addr,X` (R186). -/
  | aslAbsX (a : Word)
  /-- 0x1F `ORA long,X` (R184). -/
  | oraLongX (l : Addr)
  /-- 0x20 `JSR addr` (R229). -/
  | jsrAbs (a : Word)
  /-- 0x21 `AND (dp,X)` (R181). -/
  | andDpXInd (o1 : Byte)
  /-- 0x22 `JSL long` (R231). -/
  | jsl (l : Addr)
  /-- 0x23 `AND sr,S` (R181). -/
  | andSr (o1 : Byte)
  /-- 0x24 `BIT dp` (R182). -/
  | bitDp (o1 : Byte)
  /-- 0x25 `AND dp` (R181). -/
  | andDp (o1 : Byte)
  /-- 0x26 `ROL dp` (R188). -/
  | rolDp (o1 : Byte)
  /-- 0x27 `AND [dp]` (R181). -/
  | andDpIndLong (o1 : Byte)
  /-- 0x29 `AND #const` (R181). -/
  | andImm (k : Word)
  /-- 0x2C `BIT addr` (R182). -/
  | bitAbs (a : Word)
  /-- 0x2D `AND addr` (R181). -/
  | andAbs (a : Word)
  /-- 0x2E `ROL addr` (R188). -/
  | rolAbs (a : Word)
  /-- 0x2F `AND long` (R181). -/
  | andLong (l : Addr)
  /-- 0x30 `BMI nearlabel` (R218). -/
  | bmi (rel : Byte)
  /-- 0x31 `AND (dp),Y` (R181). -/
  | andDpIndY (o1 : Byte)
  /-- 0x32 `AND (dp)` (R181). -/
  | andDpInd (o1 : Byte)
  /-- 0x33 `AND (sr,S),Y` (R181). -/
  | andSrIndY (o1 : Byte)
  /-- 0x34 `BIT dp,X` (R182). -/
  | bitDpX (o1 : Byte)
  /-- 0x35 `AND dp,X` (R181). -/
  | andDpX (o1 : Byte)
  /-- 0x36 `ROL dp,X` (R188). -/
  | rolDpX (o1 : Byte)
  /-- 0x37 `AND [dp],Y` (R181). -/
  | andDpIndLongY (o1 : Byte)
  /-- 0x39 `AND addr,Y` (R181). -/
  | andAbsY (a : Word)
  /-- 0x3C `BIT addr,X` (R182). -/
  | bitAbsX (a : Word)
  /-- 0x3D `AND addr,X` (R181). -/
  | andAbsX (a : Word)
  /-- 0x3E `ROL addr,X` (R188). -/
  | rolAbsX (a : Word)
  /-- 0x3F `AND long,X` (R181). -/
  | andLongX (l : Addr)
  /-- 0x41 `EOR (dp,X)` (R183). -/
  | eorDpXInd (o1 : Byte)
  /-- 0x42 `WDM` (R326). -/
  | wdm (sig : Byte)
  /-- 0x43 `EOR sr,S` (R183). -/
  | eorSr (o1 : Byte)
  /-- 0x44 `MVP srcbk, dstbk` (R321). -/
  | mvp (o1 : Byte) (o2 : Byte)
  /-- 0x45 `EOR dp` (R183). -/
  | eorDp (o1 : Byte)
  /-- 0x46 `LSR dp` (R187). -/
  | lsrDp (o1 : Byte)
  /-- 0x47 `EOR [dp]` (R183). -/
  | eorDpIndLong (o1 : Byte)
  /-- 0x49 `EOR #const` (R183). -/
  | eorImm (k : Word)
  /-- 0x4C `JMP addr` (R224). -/
  | jmpAbs (a : Word)
  /-- 0x4D `EOR addr` (R183). -/
  | eorAbs (a : Word)
  /-- 0x4E `LSR addr` (R187). -/
  | lsrAbs (a : Word)
  /-- 0x4F `EOR long` (R183). -/
  | eorLong (l : Addr)
  /-- 0x50 `BVC nearlabel` (R220). -/
  | bvc (rel : Byte)
  /-- 0x51 `EOR (dp),Y` (R183). -/
  | eorDpIndY (o1 : Byte)
  /-- 0x52 `EOR (dp)` (R183). -/
  | eorDpInd (o1 : Byte)
  /-- 0x53 `EOR (sr,S),Y` (R183). -/
  | eorSrIndY (o1 : Byte)
  /-- 0x54 `MVN srcbk, dstbk` (R320). -/
  | mvn (o1 : Byte) (o2 : Byte)
  /-- 0x55 `EOR dp,X` (R183). -/
  | eorDpX (o1 : Byte)
  /-- 0x56 `LSR dp,X` (R187). -/
  | lsrDpX (o1 : Byte)
  /-- 0x57 `EOR [dp],Y` (R183). -/
  | eorDpIndLongY (o1 : Byte)
  /-- 0x59 `EOR addr,Y` (R183). -/
  | eorAbsY (a : Word)
  /-- 0x5C `JMP long` (R225). -/
  | jmpLong (l : Addr)
  /-- 0x5D `EOR addr,X` (R183). -/
  | eorAbsX (a : Word)
  /-- 0x5E `LSR addr,X` (R187). -/
  | lsrAbsX (a : Word)
  /-- 0x5F `EOR long,X` (R183). -/
  | eorLongX (l : Addr)
  /-- 0x61 `ADC (dp,X)` (R162). -/
  | adcDpXInd (o1 : Byte)
  /-- 0x62 `PER label` (R298). -/
  | per (rel : Word)
  /-- 0x63 `ADC sr,S` (R162). -/
  | adcSr (o1 : Byte)
  /-- 0x64 `STZ dp` (R256). -/
  | stzDp (o1 : Byte)
  /-- 0x65 `ADC dp` (R162). -/
  | adcDp (o1 : Byte)
  /-- 0x66 `ROR dp` (R189). -/
  | rorDp (o1 : Byte)
  /-- 0x67 `ADC [dp]` (R162). -/
  | adcDpIndLong (o1 : Byte)
  /-- 0x69 `ADC #const` (R162). -/
  | adcImm (k : Word)
  /-- 0x6C `JMP (addr)` (R226). -/
  | jmpAbsInd (a : Word)
  /-- 0x6D `ADC addr` (R162). -/
  | adcAbs (a : Word)
  /-- 0x6E `ROR addr` (R189). -/
  | rorAbs (a : Word)
  /-- 0x6F `ADC long` (R162). -/
  | adcLong (l : Addr)
  /-- 0x70 `BVS nearlabel` (R221). -/
  | bvs (rel : Byte)
  /-- 0x71 `ADC (dp),Y` (R162). -/
  | adcDpIndY (o1 : Byte)
  /-- 0x72 `ADC (dp)` (R162). -/
  | adcDpInd (o1 : Byte)
  /-- 0x73 `ADC (sr,S),Y` (R162). -/
  | adcSrIndY (o1 : Byte)
  /-- 0x74 `STZ dp,X` (R256). -/
  | stzDpX (o1 : Byte)
  /-- 0x75 `ADC dp,X` (R162). -/
  | adcDpX (o1 : Byte)
  /-- 0x76 `ROR dp,X` (R189). -/
  | rorDpX (o1 : Byte)
  /-- 0x77 `ADC [dp],Y` (R162). -/
  | adcDpIndLongY (o1 : Byte)
  /-- 0x79 `ADC addr,Y` (R162). -/
  | adcAbsY (a : Word)
  /-- 0x7C `JMP (addr,X)` (R227). -/
  | jmpAbsXInd (a : Word)
  /-- 0x7D `ADC addr,X` (R162). -/
  | adcAbsX (a : Word)
  /-- 0x7E `ROR addr,X` (R189). -/
  | rorAbsX (a : Word)
  /-- 0x7F `ADC long,X` (R162). -/
  | adcLongX (l : Addr)
  /-- 0x80 `BRA nearlabel` (R222). -/
  | bra (rel : Byte)
  /-- 0x81 `STA (dp,X)` (R253). -/
  | staDpXInd (o1 : Byte)
  /-- 0x82 `BRL label` (R223). -/
  | brl (rel : Word)
  /-- 0x83 `STA sr,S` (R253). -/
  | staSr (o1 : Byte)
  /-- 0x84 `STY dp` (R255). -/
  | styDp (o1 : Byte)
  /-- 0x85 `STA dp` (R253). -/
  | staDp (o1 : Byte)
  /-- 0x86 `STX dp` (R254). -/
  | stxDp (o1 : Byte)
  /-- 0x87 `STA [dp]` (R253). -/
  | staDpIndLong (o1 : Byte)
  /-- 0x89 `BIT #const` (R182). -/
  | bitImm (k : Word)
  /-- 0x8C `STY addr` (R255). -/
  | styAbs (a : Word)
  /-- 0x8D `STA addr` (R253). -/
  | staAbs (a : Word)
  /-- 0x8E `STX addr` (R254). -/
  | stxAbs (a : Word)
  /-- 0x8F `STA long` (R253). -/
  | staLong (l : Addr)
  /-- 0x90 `BCC nearlabel` (R214). -/
  | bcc (rel : Byte)
  /-- 0x91 `STA (dp),Y` (R253). -/
  | staDpIndY (o1 : Byte)
  /-- 0x92 `STA (dp)` (R253). -/
  | staDpInd (o1 : Byte)
  /-- 0x93 `STA (sr,S),Y` (R253). -/
  | staSrIndY (o1 : Byte)
  /-- 0x94 `STY dp,X` (R255). -/
  | styDpX (o1 : Byte)
  /-- 0x95 `STA dp,X` (R253). -/
  | staDpX (o1 : Byte)
  /-- 0x96 `STX dp,Y` (R254). -/
  | stxDpY (o1 : Byte)
  /-- 0x97 `STA [dp],Y` (R253). -/
  | staDpIndLongY (o1 : Byte)
  /-- 0x99 `STA addr,Y` (R253). -/
  | staAbsY (a : Word)
  /-- 0x9C `STZ addr` (R256). -/
  | stzAbs (a : Word)
  /-- 0x9D `STA addr,X` (R253). -/
  | staAbsX (a : Word)
  /-- 0x9E `STZ addr,X` (R256). -/
  | stzAbsX (a : Word)
  /-- 0x9F `STA long,X` (R253). -/
  | staLongX (l : Addr)
  /-- 0xA0 `LDY #const` (R252). -/
  | ldyImm (k : Word)
  /-- 0xA1 `LDA (dp,X)` (R250). -/
  | ldaDpXInd (o1 : Byte)
  /-- 0xA2 `LDX #const` (R251). -/
  | ldxImm (k : Word)
  /-- 0xA3 `LDA sr,S` (R250). -/
  | ldaSr (o1 : Byte)
  /-- 0xA4 `LDY dp` (R252). -/
  | ldyDp (o1 : Byte)
  /-- 0xA5 `LDA dp` (R250). -/
  | ldaDp (o1 : Byte)
  /-- 0xA6 `LDX dp` (R251). -/
  | ldxDp (o1 : Byte)
  /-- 0xA7 `LDA [dp]` (R250). -/
  | ldaDpIndLong (o1 : Byte)
  /-- 0xA9 `LDA #const` (R250). -/
  | ldaImm (k : Word)
  /-- 0xAC `LDY addr` (R252). -/
  | ldyAbs (a : Word)
  /-- 0xAD `LDA addr` (R250). -/
  | ldaAbs (a : Word)
  /-- 0xAE `LDX addr` (R251). -/
  | ldxAbs (a : Word)
  /-- 0xAF `LDA long` (R250). -/
  | ldaLong (l : Addr)
  /-- 0xB0 `BCS nearlabel` (R215). -/
  | bcs (rel : Byte)
  /-- 0xB1 `LDA (dp),Y` (R250). -/
  | ldaDpIndY (o1 : Byte)
  /-- 0xB2 `LDA (dp)` (R250). -/
  | ldaDpInd (o1 : Byte)
  /-- 0xB3 `LDA (sr,S),Y` (R250). -/
  | ldaSrIndY (o1 : Byte)
  /-- 0xB4 `LDY dp,X` (R252). -/
  | ldyDpX (o1 : Byte)
  /-- 0xB5 `LDA dp,X` (R250). -/
  | ldaDpX (o1 : Byte)
  /-- 0xB6 `LDX dp,X` (R251). -/
  | ldxDpIdx (o1 : Byte)
  /-- 0xB7 `LDA [dp],Y` (R250). -/
  | ldaDpIndLongY (o1 : Byte)
  /-- 0xB9 `LDA addr,Y` (R250). -/
  | ldaAbsY (a : Word)
  /-- 0xBC `LDY addr,X` (R252). -/
  | ldyAbsX (a : Word)
  /-- 0xBD `LDA addr,X` (R250). -/
  | ldaAbsX (a : Word)
  /-- 0xBE `LDX addr,X` (R251). -/
  | ldxAbsIdx (a : Word)
  /-- 0xBF `LDA long,X` (R250). -/
  | ldaLongX (l : Addr)
  /-- 0xC0 `CPY #const` (R212). -/
  | cpyImm (k : Word)
  /-- 0xC1 `CMP (dp,X)` (R210). -/
  | cmpDpXInd (o1 : Byte)
  /-- 0xC2 `REP #const` (R208). -/
  | rep (k : Byte)
  /-- 0xC3 `CMP sr,S` (R210). -/
  | cmpSr (o1 : Byte)
  /-- 0xC4 `CPY dp` (R212). -/
  | cpyDp (o1 : Byte)
  /-- 0xC5 `CMP dp` (R210). -/
  | cmpDp (o1 : Byte)
  /-- 0xC6 `DEC dp` (R164). -/
  | decDp (o1 : Byte)
  /-- 0xC7 `CMP [dp]` (R210). -/
  | cmpDpIndLong (o1 : Byte)
  /-- 0xC9 `CMP #const` (R210). -/
  | cmpImm (k : Word)
  /-- 0xCC `CPY addr` (R212). -/
  | cpyAbs (a : Word)
  /-- 0xCD `CMP addr` (R210). -/
  | cmpAbs (a : Word)
  /-- 0xCE `DEC addr` (R164). -/
  | decAbs (a : Word)
  /-- 0xCF `CMP long` (R210). -/
  | cmpLong (l : Addr)
  /-- 0xD0 `BNE nearlabel` (R217). -/
  | bne (rel : Byte)
  /-- 0xD1 `CMP (dp),Y` (R210). -/
  | cmpDpIndY (o1 : Byte)
  /-- 0xD2 `CMP (dp)` (R210). -/
  | cmpDpInd (o1 : Byte)
  /-- 0xD3 `CMP (sr,S),Y` (R210). -/
  | cmpSrIndY (o1 : Byte)
  /-- 0xD4 `PEI (dp)` (R297). -/
  | pei (o1 : Byte)
  /-- 0xD5 `CMP dp,X` (R210). -/
  | cmpDpX (o1 : Byte)
  /-- 0xD6 `DEC dp,X` (R164). -/
  | decDpX (o1 : Byte)
  /-- 0xD7 `CMP [dp],Y` (R210). -/
  | cmpDpIndLongY (o1 : Byte)
  /-- 0xD9 `CMP addr,Y` (R210). -/
  | cmpAbsY (a : Word)
  /-- 0xDC `JMP [addr]` (R228). -/
  | jmpAbsIndLong (a : Word)
  /-- 0xDD `CMP addr,X` (R210). -/
  | cmpAbsX (a : Word)
  /-- 0xDE `DEC addr,X` (R164). -/
  | decAbsX (a : Word)
  /-- 0xDF `CMP long,X` (R210). -/
  | cmpLongX (l : Addr)
  /-- 0xE0 `CPX #const` (R211). -/
  | cpxImm (k : Word)
  /-- 0xE1 `SBC (dp,X)` (R170). -/
  | sbcDpXInd (o1 : Byte)
  /-- 0xE2 `SEP #const` (R209). -/
  | sep (k : Byte)
  /-- 0xE3 `SBC sr,S` (R170). -/
  | sbcSr (o1 : Byte)
  /-- 0xE4 `CPX dp` (R211). -/
  | cpxDp (o1 : Byte)
  /-- 0xE5 `SBC dp` (R170). -/
  | sbcDp (o1 : Byte)
  /-- 0xE6 `INC dp` (R167). -/
  | incDp (o1 : Byte)
  /-- 0xE7 `SBC [dp]` (R170). -/
  | sbcDpIndLong (o1 : Byte)
  /-- 0xE9 `SBC #const` (R170). -/
  | sbcImm (k : Word)
  /-- 0xEC `CPX addr` (R211). -/
  | cpxAbs (a : Word)
  /-- 0xED `SBC addr` (R170). -/
  | sbcAbs (a : Word)
  /-- 0xEE `INC addr` (R167). -/
  | incAbs (a : Word)
  /-- 0xEF `SBC long` (R170). -/
  | sbcLong (l : Addr)
  /-- 0xF0 `BEQ nearlabel` (R216). -/
  | beq (rel : Byte)
  /-- 0xF1 `SBC (dp),Y` (R170). -/
  | sbcDpIndY (o1 : Byte)
  /-- 0xF2 `SBC (dp)` (R170). -/
  | sbcDpInd (o1 : Byte)
  /-- 0xF3 `SBC (sr,S),Y` (R170). -/
  | sbcSrIndY (o1 : Byte)
  /-- 0xF4 `PEA addr` (R296). -/
  | pea (a : Word)
  /-- 0xF5 `SBC dp,X` (R170). -/
  | sbcDpX (o1 : Byte)
  /-- 0xF6 `INC dp,X` (R167). -/
  | incDpX (o1 : Byte)
  /-- 0xF7 `SBC [dp],Y` (R170). -/
  | sbcDpIndLongY (o1 : Byte)
  /-- 0xF9 `SBC addr,Y` (R170). -/
  | sbcAbsY (a : Word)
  /-- 0xFC `JSR (addr,X)` (R230). -/
  | jsrAbsXInd (a : Word)
  /-- 0xFD `SBC addr,X` (R170). -/
  | sbcAbsX (a : Word)
  /-- 0xFE `INC addr,X` (R167). -/
  | incAbsX (a : Word)
  /-- 0xFF `SBC long,X` (R170). -/
  | sbcLongX (l : Addr)
  /-- 0x08 `PHP` (R299). -/
  | php
  /-- 0x0A `ASL A` (R186). -/
  | aslA
  /-- 0x0B `PHD` (R294). -/
  | phd
  /-- 0x18 `CLC` (R201). -/
  | clc
  /-- 0x1A `INC A` (R167). -/
  | incA
  /-- 0x1B `TCS` (R261). -/
  | tcs
  /-- 0x28 `PLP` (R289). -/
  | plp
  /-- 0x2A `ROL A` (R188). -/
  | rolA
  /-- 0x2B `PLD` (R287). -/
  | pld
  /-- 0x38 `SEC` (R205). -/
  | sec
  /-- 0x3A `DEC A` (R164). -/
  | decA
  /-- 0x3B `TSC` (R263). -/
  | tsc
  /-- 0x40 `RTI` (R312). -/
  | rti
  /-- 0x48 `PHA` (R292). -/
  | pha
  /-- 0x4A `LSR A` (R187). -/
  | lsrA
  /-- 0x4B `PHK` (R295). -/
  | phk
  /-- 0x58 `CLI` (R203). -/
  | cli
  /-- 0x5A `PHY` (R301). -/
  | phy
  /-- 0x5B `TCD` (R260). -/
  | tcd
  /-- 0x60 `RTS` (R232). -/
  | rts
  /-- 0x68 `PLA` (R285). -/
  | pla
  /-- 0x6A `ROR A` (R189). -/
  | rorA
  /-- 0x6B `RTL` (R233). -/
  | rtl
  /-- 0x78 `SEI` (R207). -/
  | sei
  /-- 0x7A `PLY` (R291). -/
  | ply
  /-- 0x7B `TDC` (R262). -/
  | tdc
  /-- 0x88 `DEY` (R166). -/
  | dey
  /-- 0x8A `TXA` (R265). -/
  | txa
  /-- 0x8B `PHB` (R293). -/
  | phb
  /-- 0x98 `TYA` (R268). -/
  | tya
  /-- 0x9A `TXS` (R266). -/
  | txs
  /-- 0x9B `TXY` (R267). -/
  | txy
  /-- 0xA8 `TAY` (R259). -/
  | tay
  /-- 0xAA `TAX` (R258). -/
  | tax
  /-- 0xAB `PLB` (R286). -/
  | plb
  /-- 0xB8 `CLV` (R204). -/
  | clv
  /-- 0xBA `TSX` (R264). -/
  | tsx
  /-- 0xBB `TYX` (R269). -/
  | tyx
  /-- 0xC8 `INY` (R169). -/
  | iny
  /-- 0xCA `DEX` (R165). -/
  | dex
  /-- 0xCB `WAI` (R313). -/
  | wai
  /-- 0xD8 `CLD` (R202). -/
  | cld
  /-- 0xDA `PHX` (R300). -/
  | phx
  /-- 0xDB `STP` (R327). -/
  | stp
  /-- 0xE8 `INX` (R168). -/
  | inx
  /-- 0xEA `NOP` (R325). -/
  | nop
  /-- 0xEB `XBA` (R270). -/
  | xba
  /-- 0xF8 `SED` (R206). -/
  | sed
  /-- 0xFA `PLX` (R290). -/
  | plx
  /-- 0xFB `XCE` (R322). -/
  | xce
  deriving DecidableEq, Repr

end Sys2Proof
end

