-- ==== Sys2Proof/WellFormed.lean ====
section
/-! DEFINITION. Well-formed instructions: what a check of the text of an instruction can refuse. An instruction is
well formed for a variant and a pair of widths when the variant has its opcode and its constant fits its width. -/

namespace Sys2Proof

/-- Which variants have an opcode (30_encoding.md R95: no mark, `°`, `*`). -/
inductive Availability where
  /-- All three variants. -/
  | all
  /-- `V65C02` and `V65816`. -/
  | cmos
  /-- `V65816` only. -/
  | only816
  deriving DecidableEq, Repr

/-- Does a variant have an opcode of this availability? (30_encoding.md R95, R96) -/
def Availability.on : Availability → Variant → Bool
  | .all, _ => true
  | .cmos, .v6502 => false
  | .cmos, .v65C02 => true
  | .cmos, .v65816 => true
  | .only816, .v6502 => false
  | .only816, .v65C02 => false
  | .only816, .v65816 => true

/-- The operand of an instruction by its format (30_encoding.md R91). -/
inductive Operand where
  | imp
  | sig (b : Byte)
  | imm8 (k : Byte)
  /-- One or two bytes as `WM` says. -/
  | immM (k : Word)
  /-- One or two bytes as `WX` says. -/
  | immX (k : Word)
  | dp (o1 : Byte)
  | sr (o1 : Byte)
  | abs (a : Word)
  | long (l : Addr)
  | rel8 (b : Byte)
  | rel16 (d : Word)
  | blk (o1 o2 : Byte)
  deriving DecidableEq, Repr

/-- The variants an instruction is on, from the availability lists of 30_encoding.md R96. -/
def Instr.availability : Instr → Availability
  | .brk _ | .oraDpXInd _ | .oraDp _ | .aslDp _ | .php | .oraImm _ | .aslA | .oraAbs _ | .aslAbs _ | .bpl _
  | .oraDpIndY _ | .oraDpX _ | .aslDpX _ | .clc | .oraAbsY _ | .oraAbsX _ | .aslAbsX _ | .jsrAbs _
  | .andDpXInd _ | .bitDp _ | .andDp _ | .rolDp _ | .plp | .andImm _ | .rolA | .bitAbs _ | .andAbs _
  | .rolAbs _ | .bmi _ | .andDpIndY _ | .andDpX _ | .rolDpX _ | .sec | .andAbsY _ | .andAbsX _ | .rolAbsX _
  | .rti | .eorDpXInd _ | .eorDp _ | .lsrDp _ | .pha | .eorImm _ | .lsrA | .jmpAbs _ | .eorAbs _ | .lsrAbs _
  | .bvc _ | .eorDpIndY _ | .eorDpX _ | .lsrDpX _ | .cli | .eorAbsY _ | .eorAbsX _ | .lsrAbsX _ | .rts
  | .adcDpXInd _ | .adcDp _ | .rorDp _ | .pla | .adcImm _ | .rorA | .jmpAbsInd _ | .adcAbs _ | .rorAbs _
  | .bvs _ | .adcDpIndY _ | .adcDpX _ | .rorDpX _ | .sei | .adcAbsY _ | .adcAbsX _ | .rorAbsX _ | .staDpXInd _
  | .styDp _ | .staDp _ | .stxDp _ | .dey | .txa | .styAbs _ | .staAbs _ | .stxAbs _ | .bcc _ | .staDpIndY _
  | .styDpX _ | .staDpX _ | .stxDpY _ | .tya | .staAbsY _ | .txs | .staAbsX _ | .ldyImm _ | .ldaDpXInd _
  | .ldxImm _ | .ldyDp _ | .ldaDp _ | .ldxDp _ | .tay | .ldaImm _ | .tax | .ldyAbs _ | .ldaAbs _ | .ldxAbs _
  | .bcs _ | .ldaDpIndY _ | .ldyDpX _ | .ldaDpX _ | .ldxDpIdx _ | .clv | .ldaAbsY _ | .tsx | .ldyAbsX _
  | .ldaAbsX _ | .ldxAbsIdx _ | .cpyImm _ | .cmpDpXInd _ | .cpyDp _ | .cmpDp _ | .decDp _ | .iny | .cmpImm _
  | .dex | .cpyAbs _ | .cmpAbs _ | .decAbs _ | .bne _ | .cmpDpIndY _ | .cmpDpX _ | .decDpX _ | .cld
  | .cmpAbsY _ | .cmpAbsX _ | .decAbsX _ | .cpxImm _ | .sbcDpXInd _ | .cpxDp _ | .sbcDp _ | .incDp _ | .inx
  | .sbcImm _ | .nop | .cpxAbs _ | .sbcAbs _ | .incAbs _ | .beq _ | .sbcDpIndY _ | .sbcDpX _ | .incDpX _ | .sed
  | .sbcAbsY _ | .sbcAbsX _ | .incAbsX _ => .all
  | .tsbDp _ | .tsbAbs _ | .oraDpInd _ | .trbDp _ | .incA | .trbAbs _ | .andDpInd _ | .bitDpX _ | .decA
  | .bitAbsX _ | .eorDpInd _ | .phy | .stzDp _ | .adcDpInd _ | .stzDpX _ | .ply | .jmpAbsXInd _ | .bra _
  | .bitImm _ | .staDpInd _ | .stzAbs _ | .stzAbsX _ | .ldaDpInd _ | .cmpDpInd _ | .phx | .sbcDpInd _ | .plx => .cmos
  | .cop _ | .oraSr _ | .oraDpIndLong _ | .phd | .oraLong _ | .oraSrIndY _ | .oraDpIndLongY _ | .tcs
  | .oraLongX _ | .jsl _ | .andSr _ | .andDpIndLong _ | .pld | .andLong _ | .andSrIndY _ | .andDpIndLongY _
  | .tsc | .andLongX _ | .wdm _ | .eorSr _ | .mvp _ _ | .eorDpIndLong _ | .phk | .eorLong _ | .eorSrIndY _
  | .mvn _ _ | .eorDpIndLongY _ | .tcd | .jmpLong _ | .eorLongX _ | .per _ | .adcSr _ | .adcDpIndLong _ | .rtl
  | .adcLong _ | .adcSrIndY _ | .adcDpIndLongY _ | .tdc | .adcLongX _ | .brl _ | .staSr _ | .staDpIndLong _
  | .phb | .staLong _ | .staSrIndY _ | .staDpIndLongY _ | .txy | .staLongX _ | .ldaSr _ | .ldaDpIndLong _
  | .plb | .ldaLong _ | .ldaSrIndY _ | .ldaDpIndLongY _ | .tyx | .ldaLongX _ | .rep _ | .cmpSr _
  | .cmpDpIndLong _ | .wai | .cmpLong _ | .cmpSrIndY _ | .pei _ | .cmpDpIndLongY _ | .stp | .jmpAbsIndLong _
  | .cmpLongX _ | .sep _ | .sbcSr _ | .sbcDpIndLong _ | .xba | .sbcLong _ | .sbcSrIndY _ | .pea _
  | .sbcDpIndLongY _ | .xce | .jsrAbsXInd _ | .sbcLongX _ => .only816

/-- An instruction's format and operand. -/
def Instr.operand : Instr → Operand
  | .brk sig => .sig sig
  | .oraDpXInd o1 => .dp o1
  | .cop sig => .sig sig
  | .oraSr o1 => .sr o1
  | .tsbDp o1 => .dp o1
  | .oraDp o1 => .dp o1
  | .aslDp o1 => .dp o1
  | .oraDpIndLong o1 => .dp o1
  | .php => .imp
  | .oraImm k => .immM k
  | .aslA => .imp
  | .phd => .imp
  | .tsbAbs a => .abs a
  | .oraAbs a => .abs a
  | .aslAbs a => .abs a
  | .oraLong l => .long l
  | .bpl rel => .rel8 rel
  | .oraDpIndY o1 => .dp o1
  | .oraDpInd o1 => .dp o1
  | .oraSrIndY o1 => .sr o1
  | .trbDp o1 => .dp o1
  | .oraDpX o1 => .dp o1
  | .aslDpX o1 => .dp o1
  | .oraDpIndLongY o1 => .dp o1
  | .clc => .imp
  | .oraAbsY a => .abs a
  | .incA => .imp
  | .tcs => .imp
  | .trbAbs a => .abs a
  | .oraAbsX a => .abs a
  | .aslAbsX a => .abs a
  | .oraLongX l => .long l
  | .jsrAbs a => .abs a
  | .andDpXInd o1 => .dp o1
  | .jsl l => .long l
  | .andSr o1 => .sr o1
  | .bitDp o1 => .dp o1
  | .andDp o1 => .dp o1
  | .rolDp o1 => .dp o1
  | .andDpIndLong o1 => .dp o1
  | .plp => .imp
  | .andImm k => .immM k
  | .rolA => .imp
  | .pld => .imp
  | .bitAbs a => .abs a
  | .andAbs a => .abs a
  | .rolAbs a => .abs a
  | .andLong l => .long l
  | .bmi rel => .rel8 rel
  | .andDpIndY o1 => .dp o1
  | .andDpInd o1 => .dp o1
  | .andSrIndY o1 => .sr o1
  | .bitDpX o1 => .dp o1
  | .andDpX o1 => .dp o1
  | .rolDpX o1 => .dp o1
  | .andDpIndLongY o1 => .dp o1
  | .sec => .imp
  | .andAbsY a => .abs a
  | .decA => .imp
  | .tsc => .imp
  | .bitAbsX a => .abs a
  | .andAbsX a => .abs a
  | .rolAbsX a => .abs a
  | .andLongX l => .long l
  | .rti => .imp
  | .eorDpXInd o1 => .dp o1
  | .wdm sig => .sig sig
  | .eorSr o1 => .sr o1
  | .mvp o1 o2 => .blk o1 o2
  | .eorDp o1 => .dp o1
  | .lsrDp o1 => .dp o1
  | .eorDpIndLong o1 => .dp o1
  | .pha => .imp
  | .eorImm k => .immM k
  | .lsrA => .imp
  | .phk => .imp
  | .jmpAbs a => .abs a
  | .eorAbs a => .abs a
  | .lsrAbs a => .abs a
  | .eorLong l => .long l
  | .bvc rel => .rel8 rel
  | .eorDpIndY o1 => .dp o1
  | .eorDpInd o1 => .dp o1
  | .eorSrIndY o1 => .sr o1
  | .mvn o1 o2 => .blk o1 o2
  | .eorDpX o1 => .dp o1
  | .lsrDpX o1 => .dp o1
  | .eorDpIndLongY o1 => .dp o1
  | .cli => .imp
  | .eorAbsY a => .abs a
  | .phy => .imp
  | .tcd => .imp
  | .jmpLong l => .long l
  | .eorAbsX a => .abs a
  | .lsrAbsX a => .abs a
  | .eorLongX l => .long l
  | .rts => .imp
  | .adcDpXInd o1 => .dp o1
  | .per rel => .rel16 rel
  | .adcSr o1 => .sr o1
  | .stzDp o1 => .dp o1
  | .adcDp o1 => .dp o1
  | .rorDp o1 => .dp o1
  | .adcDpIndLong o1 => .dp o1
  | .pla => .imp
  | .adcImm k => .immM k
  | .rorA => .imp
  | .rtl => .imp
  | .jmpAbsInd a => .abs a
  | .adcAbs a => .abs a
  | .rorAbs a => .abs a
  | .adcLong l => .long l
  | .bvs rel => .rel8 rel
  | .adcDpIndY o1 => .dp o1
  | .adcDpInd o1 => .dp o1
  | .adcSrIndY o1 => .sr o1
  | .stzDpX o1 => .dp o1
  | .adcDpX o1 => .dp o1
  | .rorDpX o1 => .dp o1
  | .adcDpIndLongY o1 => .dp o1
  | .sei => .imp
  | .adcAbsY a => .abs a
  | .ply => .imp
  | .tdc => .imp
  | .jmpAbsXInd a => .abs a
  | .adcAbsX a => .abs a
  | .rorAbsX a => .abs a
  | .adcLongX l => .long l
  | .bra rel => .rel8 rel
  | .staDpXInd o1 => .dp o1
  | .brl rel => .rel16 rel
  | .staSr o1 => .sr o1
  | .styDp o1 => .dp o1
  | .staDp o1 => .dp o1
  | .stxDp o1 => .dp o1
  | .staDpIndLong o1 => .dp o1
  | .dey => .imp
  | .bitImm k => .immM k
  | .txa => .imp
  | .phb => .imp
  | .styAbs a => .abs a
  | .staAbs a => .abs a
  | .stxAbs a => .abs a
  | .staLong l => .long l
  | .bcc rel => .rel8 rel
  | .staDpIndY o1 => .dp o1
  | .staDpInd o1 => .dp o1
  | .staSrIndY o1 => .sr o1
  | .styDpX o1 => .dp o1
  | .staDpX o1 => .dp o1
  | .stxDpY o1 => .dp o1
  | .staDpIndLongY o1 => .dp o1
  | .tya => .imp
  | .staAbsY a => .abs a
  | .txs => .imp
  | .txy => .imp
  | .stzAbs a => .abs a
  | .staAbsX a => .abs a
  | .stzAbsX a => .abs a
  | .staLongX l => .long l
  | .ldyImm k => .immX k
  | .ldaDpXInd o1 => .dp o1
  | .ldxImm k => .immX k
  | .ldaSr o1 => .sr o1
  | .ldyDp o1 => .dp o1
  | .ldaDp o1 => .dp o1
  | .ldxDp o1 => .dp o1
  | .ldaDpIndLong o1 => .dp o1
  | .tay => .imp
  | .ldaImm k => .immM k
  | .tax => .imp
  | .plb => .imp
  | .ldyAbs a => .abs a
  | .ldaAbs a => .abs a
  | .ldxAbs a => .abs a
  | .ldaLong l => .long l
  | .bcs rel => .rel8 rel
  | .ldaDpIndY o1 => .dp o1
  | .ldaDpInd o1 => .dp o1
  | .ldaSrIndY o1 => .sr o1
  | .ldyDpX o1 => .dp o1
  | .ldaDpX o1 => .dp o1
  | .ldxDpIdx o1 => .dp o1
  | .ldaDpIndLongY o1 => .dp o1
  | .clv => .imp
  | .ldaAbsY a => .abs a
  | .tsx => .imp
  | .tyx => .imp
  | .ldyAbsX a => .abs a
  | .ldaAbsX a => .abs a
  | .ldxAbsIdx a => .abs a
  | .ldaLongX l => .long l
  | .cpyImm k => .immX k
  | .cmpDpXInd o1 => .dp o1
  | .rep k => .imm8 k
  | .cmpSr o1 => .sr o1
  | .cpyDp o1 => .dp o1
  | .cmpDp o1 => .dp o1
  | .decDp o1 => .dp o1
  | .cmpDpIndLong o1 => .dp o1
  | .iny => .imp
  | .cmpImm k => .immM k
  | .dex => .imp
  | .wai => .imp
  | .cpyAbs a => .abs a
  | .cmpAbs a => .abs a
  | .decAbs a => .abs a
  | .cmpLong l => .long l
  | .bne rel => .rel8 rel
  | .cmpDpIndY o1 => .dp o1
  | .cmpDpInd o1 => .dp o1
  | .cmpSrIndY o1 => .sr o1
  | .pei o1 => .dp o1
  | .cmpDpX o1 => .dp o1
  | .decDpX o1 => .dp o1
  | .cmpDpIndLongY o1 => .dp o1
  | .cld => .imp
  | .cmpAbsY a => .abs a
  | .phx => .imp
  | .stp => .imp
  | .jmpAbsIndLong a => .abs a
  | .cmpAbsX a => .abs a
  | .decAbsX a => .abs a
  | .cmpLongX l => .long l
  | .cpxImm k => .immX k
  | .sbcDpXInd o1 => .dp o1
  | .sep k => .imm8 k
  | .sbcSr o1 => .sr o1
  | .cpxDp o1 => .dp o1
  | .sbcDp o1 => .dp o1
  | .incDp o1 => .dp o1
  | .sbcDpIndLong o1 => .dp o1
  | .inx => .imp
  | .sbcImm k => .immM k
  | .nop => .imp
  | .xba => .imp
  | .cpxAbs a => .abs a
  | .sbcAbs a => .abs a
  | .incAbs a => .abs a
  | .sbcLong l => .long l
  | .beq rel => .rel8 rel
  | .sbcDpIndY o1 => .dp o1
  | .sbcDpInd o1 => .dp o1
  | .sbcSrIndY o1 => .sr o1
  | .pea a => .abs a
  | .sbcDpX o1 => .dp o1
  | .incDpX o1 => .dp o1
  | .sbcDpIndLongY o1 => .dp o1
  | .sed => .imp
  | .sbcAbsY a => .abs a
  | .plx => .imp
  | .xce => .imp
  | .jsrAbsXInd a => .abs a
  | .sbcAbsX a => .abs a
  | .incAbsX a => .abs a
  | .sbcLongX l => .long l

/-- A constant of width 8 has no high byte. -/
def Width.fits : Width → Word → Bool
  | .w8, k => k.toNat < 256
  | .w16, _ => true

/-- Does the operand fit the widths `WM` and `WX`? Only the immediates of 30_encoding.md R92 can fail; every value of
every other operand byte is legal (R98 (d)). -/
def Operand.fits (wm wx : Width) : Operand → Bool
  | .imp => true
  | .sig _ => true
  | .imm8 _ => true
  | .immM k => wm.fits k
  | .immX k => wx.fits k
  | .dp _ => true
  | .sr _ => true
  | .abs _ => true
  | .long _ => true
  | .rel8 _ => true
  | .rel16 _ => true
  | .blk _ _ => true

/-- An instruction that the variant has (30_encoding.md R97) and whose constant fits (R92). -/
def Instr.wellFormed (v : Variant) (wm wx : Width) (i : Instr) : Bool :=
  i.availability.on v && i.operand.fits wm wx

end Sys2Proof
end

