-- ==== Sys2Proof/Decode.lean ====
section
/-! DEFINITION. The decoder and the encoder, both written from 30_encoding.md. Decoding is a 256-way case on the opcode
byte (R90): the table below is the opcode map of R95 row by row, and a byte that the variant does not have is refused
by name (R97). -/

namespace Sys2Proof

/-! ## Bytes, words, addresses (30_encoding.md R93; 20_memory.md R61: little-endian) -/

/-- Bits 7..0. -/
def lowByte (w : Word) : Byte := w.extractLsb' 0 8

/-- Bits 15..8. -/
def highByte (w : Word) : Byte := w.extractLsb' 8 8

/-- `hi : lo`. -/
def wordOf (lo hi : Byte) : Word := hi ++ lo

/-- `bank : offset`. -/
def addrOf (bank : Byte) (offset : Word) : Addr := bank ++ offset

/-- The low 16 bits of an address. -/
def Addr.offset (a : Addr) : Word := a.extractLsb' 0 16

/-- The top 8 bits of an address. -/
def Addr.bank (a : Addr) : Byte := a.extractLsb' 16 8

/-! ## The opcode map -/

/-- How an instruction is built from its operand bytes, by format (30_encoding.md R91). -/
inductive Build where
  | imp (i : Instr)
  | sig (f : Byte → Instr)
  | imm8 (f : Byte → Instr)
  | immM (f : Word → Instr)
  | immX (f : Word → Instr)
  | dp (f : Byte → Instr)
  | sr (f : Byte → Instr)
  | abs (f : Word → Instr)
  | long (f : Addr → Instr)
  | rel8 (f : Byte → Instr)
  | rel16 (f : Word → Instr)
  | blk (f : Byte → Byte → Instr)

/-- One cell of the opcode map. -/
structure Row where
  avail : Availability
  build : Build

/-- Row 0 of the map of R95: opcodes 0x00 to 0x0F. -/
def opcodeRow0 : List Row := [
  ⟨.all, .sig .brk⟩,
  ⟨.all, .dp .oraDpXInd⟩,
  ⟨.only816, .sig .cop⟩,
  ⟨.only816, .sr .oraSr⟩,
  ⟨.cmos, .dp .tsbDp⟩,
  ⟨.all, .dp .oraDp⟩,
  ⟨.all, .dp .aslDp⟩,
  ⟨.only816, .dp .oraDpIndLong⟩,
  ⟨.all, .imp .php⟩,
  ⟨.all, .immM .oraImm⟩,
  ⟨.all, .imp .aslA⟩,
  ⟨.only816, .imp .phd⟩,
  ⟨.cmos, .abs .tsbAbs⟩,
  ⟨.all, .abs .oraAbs⟩,
  ⟨.all, .abs .aslAbs⟩,
  ⟨.only816, .long .oraLong⟩]

/-- Row 1 of the map of R95: opcodes 0x10 to 0x1F. -/
def opcodeRow1 : List Row := [
  ⟨.all, .rel8 .bpl⟩,
  ⟨.all, .dp .oraDpIndY⟩,
  ⟨.cmos, .dp .oraDpInd⟩,
  ⟨.only816, .sr .oraSrIndY⟩,
  ⟨.cmos, .dp .trbDp⟩,
  ⟨.all, .dp .oraDpX⟩,
  ⟨.all, .dp .aslDpX⟩,
  ⟨.only816, .dp .oraDpIndLongY⟩,
  ⟨.all, .imp .clc⟩,
  ⟨.all, .abs .oraAbsY⟩,
  ⟨.cmos, .imp .incA⟩,
  ⟨.only816, .imp .tcs⟩,
  ⟨.cmos, .abs .trbAbs⟩,
  ⟨.all, .abs .oraAbsX⟩,
  ⟨.all, .abs .aslAbsX⟩,
  ⟨.only816, .long .oraLongX⟩]

/-- Row 2 of the map of R95: opcodes 0x20 to 0x2F. -/
def opcodeRow2 : List Row := [
  ⟨.all, .abs .jsrAbs⟩,
  ⟨.all, .dp .andDpXInd⟩,
  ⟨.only816, .long .jsl⟩,
  ⟨.only816, .sr .andSr⟩,
  ⟨.all, .dp .bitDp⟩,
  ⟨.all, .dp .andDp⟩,
  ⟨.all, .dp .rolDp⟩,
  ⟨.only816, .dp .andDpIndLong⟩,
  ⟨.all, .imp .plp⟩,
  ⟨.all, .immM .andImm⟩,
  ⟨.all, .imp .rolA⟩,
  ⟨.only816, .imp .pld⟩,
  ⟨.all, .abs .bitAbs⟩,
  ⟨.all, .abs .andAbs⟩,
  ⟨.all, .abs .rolAbs⟩,
  ⟨.only816, .long .andLong⟩]

/-- Row 3 of the map of R95: opcodes 0x30 to 0x3F. -/
def opcodeRow3 : List Row := [
  ⟨.all, .rel8 .bmi⟩,
  ⟨.all, .dp .andDpIndY⟩,
  ⟨.cmos, .dp .andDpInd⟩,
  ⟨.only816, .sr .andSrIndY⟩,
  ⟨.cmos, .dp .bitDpX⟩,
  ⟨.all, .dp .andDpX⟩,
  ⟨.all, .dp .rolDpX⟩,
  ⟨.only816, .dp .andDpIndLongY⟩,
  ⟨.all, .imp .sec⟩,
  ⟨.all, .abs .andAbsY⟩,
  ⟨.cmos, .imp .decA⟩,
  ⟨.only816, .imp .tsc⟩,
  ⟨.cmos, .abs .bitAbsX⟩,
  ⟨.all, .abs .andAbsX⟩,
  ⟨.all, .abs .rolAbsX⟩,
  ⟨.only816, .long .andLongX⟩]

/-- Row 4 of the map of R95: opcodes 0x40 to 0x4F. -/
def opcodeRow4 : List Row := [
  ⟨.all, .imp .rti⟩,
  ⟨.all, .dp .eorDpXInd⟩,
  ⟨.only816, .sig .wdm⟩,
  ⟨.only816, .sr .eorSr⟩,
  ⟨.only816, .blk .mvp⟩,
  ⟨.all, .dp .eorDp⟩,
  ⟨.all, .dp .lsrDp⟩,
  ⟨.only816, .dp .eorDpIndLong⟩,
  ⟨.all, .imp .pha⟩,
  ⟨.all, .immM .eorImm⟩,
  ⟨.all, .imp .lsrA⟩,
  ⟨.only816, .imp .phk⟩,
  ⟨.all, .abs .jmpAbs⟩,
  ⟨.all, .abs .eorAbs⟩,
  ⟨.all, .abs .lsrAbs⟩,
  ⟨.only816, .long .eorLong⟩]

/-- Row 5 of the map of R95: opcodes 0x50 to 0x5F. -/
def opcodeRow5 : List Row := [
  ⟨.all, .rel8 .bvc⟩,
  ⟨.all, .dp .eorDpIndY⟩,
  ⟨.cmos, .dp .eorDpInd⟩,
  ⟨.only816, .sr .eorSrIndY⟩,
  ⟨.only816, .blk .mvn⟩,
  ⟨.all, .dp .eorDpX⟩,
  ⟨.all, .dp .lsrDpX⟩,
  ⟨.only816, .dp .eorDpIndLongY⟩,
  ⟨.all, .imp .cli⟩,
  ⟨.all, .abs .eorAbsY⟩,
  ⟨.cmos, .imp .phy⟩,
  ⟨.only816, .imp .tcd⟩,
  ⟨.only816, .long .jmpLong⟩,
  ⟨.all, .abs .eorAbsX⟩,
  ⟨.all, .abs .lsrAbsX⟩,
  ⟨.only816, .long .eorLongX⟩]

/-- Row 6 of the map of R95: opcodes 0x60 to 0x6F. -/
def opcodeRow6 : List Row := [
  ⟨.all, .imp .rts⟩,
  ⟨.all, .dp .adcDpXInd⟩,
  ⟨.only816, .rel16 .per⟩,
  ⟨.only816, .sr .adcSr⟩,
  ⟨.cmos, .dp .stzDp⟩,
  ⟨.all, .dp .adcDp⟩,
  ⟨.all, .dp .rorDp⟩,
  ⟨.only816, .dp .adcDpIndLong⟩,
  ⟨.all, .imp .pla⟩,
  ⟨.all, .immM .adcImm⟩,
  ⟨.all, .imp .rorA⟩,
  ⟨.only816, .imp .rtl⟩,
  ⟨.all, .abs .jmpAbsInd⟩,
  ⟨.all, .abs .adcAbs⟩,
  ⟨.all, .abs .rorAbs⟩,
  ⟨.only816, .long .adcLong⟩]

/-- Row 7 of the map of R95: opcodes 0x70 to 0x7F. -/
def opcodeRow7 : List Row := [
  ⟨.all, .rel8 .bvs⟩,
  ⟨.all, .dp .adcDpIndY⟩,
  ⟨.cmos, .dp .adcDpInd⟩,
  ⟨.only816, .sr .adcSrIndY⟩,
  ⟨.cmos, .dp .stzDpX⟩,
  ⟨.all, .dp .adcDpX⟩,
  ⟨.all, .dp .rorDpX⟩,
  ⟨.only816, .dp .adcDpIndLongY⟩,
  ⟨.all, .imp .sei⟩,
  ⟨.all, .abs .adcAbsY⟩,
  ⟨.cmos, .imp .ply⟩,
  ⟨.only816, .imp .tdc⟩,
  ⟨.cmos, .abs .jmpAbsXInd⟩,
  ⟨.all, .abs .adcAbsX⟩,
  ⟨.all, .abs .rorAbsX⟩,
  ⟨.only816, .long .adcLongX⟩]

/-- Row 8 of the map of R95: opcodes 0x80 to 0x8F. -/
def opcodeRow8 : List Row := [
  ⟨.cmos, .rel8 .bra⟩,
  ⟨.all, .dp .staDpXInd⟩,
  ⟨.only816, .rel16 .brl⟩,
  ⟨.only816, .sr .staSr⟩,
  ⟨.all, .dp .styDp⟩,
  ⟨.all, .dp .staDp⟩,
  ⟨.all, .dp .stxDp⟩,
  ⟨.only816, .dp .staDpIndLong⟩,
  ⟨.all, .imp .dey⟩,
  ⟨.cmos, .immM .bitImm⟩,
  ⟨.all, .imp .txa⟩,
  ⟨.only816, .imp .phb⟩,
  ⟨.all, .abs .styAbs⟩,
  ⟨.all, .abs .staAbs⟩,
  ⟨.all, .abs .stxAbs⟩,
  ⟨.only816, .long .staLong⟩]

/-- Row 9 of the map of R95: opcodes 0x90 to 0x9F. -/
def opcodeRow9 : List Row := [
  ⟨.all, .rel8 .bcc⟩,
  ⟨.all, .dp .staDpIndY⟩,
  ⟨.cmos, .dp .staDpInd⟩,
  ⟨.only816, .sr .staSrIndY⟩,
  ⟨.all, .dp .styDpX⟩,
  ⟨.all, .dp .staDpX⟩,
  ⟨.all, .dp .stxDpY⟩,
  ⟨.only816, .dp .staDpIndLongY⟩,
  ⟨.all, .imp .tya⟩,
  ⟨.all, .abs .staAbsY⟩,
  ⟨.all, .imp .txs⟩,
  ⟨.only816, .imp .txy⟩,
  ⟨.cmos, .abs .stzAbs⟩,
  ⟨.all, .abs .staAbsX⟩,
  ⟨.cmos, .abs .stzAbsX⟩,
  ⟨.only816, .long .staLongX⟩]

/-- Row A of the map of R95: opcodes 0xA0 to 0xAF. -/
def opcodeRowA : List Row := [
  ⟨.all, .immX .ldyImm⟩,
  ⟨.all, .dp .ldaDpXInd⟩,
  ⟨.all, .immX .ldxImm⟩,
  ⟨.only816, .sr .ldaSr⟩,
  ⟨.all, .dp .ldyDp⟩,
  ⟨.all, .dp .ldaDp⟩,
  ⟨.all, .dp .ldxDp⟩,
  ⟨.only816, .dp .ldaDpIndLong⟩,
  ⟨.all, .imp .tay⟩,
  ⟨.all, .immM .ldaImm⟩,
  ⟨.all, .imp .tax⟩,
  ⟨.only816, .imp .plb⟩,
  ⟨.all, .abs .ldyAbs⟩,
  ⟨.all, .abs .ldaAbs⟩,
  ⟨.all, .abs .ldxAbs⟩,
  ⟨.only816, .long .ldaLong⟩]

/-- Row B of the map of R95: opcodes 0xB0 to 0xBF. -/
def opcodeRowB : List Row := [
  ⟨.all, .rel8 .bcs⟩,
  ⟨.all, .dp .ldaDpIndY⟩,
  ⟨.cmos, .dp .ldaDpInd⟩,
  ⟨.only816, .sr .ldaSrIndY⟩,
  ⟨.all, .dp .ldyDpX⟩,
  ⟨.all, .dp .ldaDpX⟩,
  ⟨.all, .dp .ldxDpIdx⟩,
  ⟨.only816, .dp .ldaDpIndLongY⟩,
  ⟨.all, .imp .clv⟩,
  ⟨.all, .abs .ldaAbsY⟩,
  ⟨.all, .imp .tsx⟩,
  ⟨.only816, .imp .tyx⟩,
  ⟨.all, .abs .ldyAbsX⟩,
  ⟨.all, .abs .ldaAbsX⟩,
  ⟨.all, .abs .ldxAbsIdx⟩,
  ⟨.only816, .long .ldaLongX⟩]

/-- Row C of the map of R95: opcodes 0xC0 to 0xCF. -/
def opcodeRowC : List Row := [
  ⟨.all, .immX .cpyImm⟩,
  ⟨.all, .dp .cmpDpXInd⟩,
  ⟨.only816, .imm8 .rep⟩,
  ⟨.only816, .sr .cmpSr⟩,
  ⟨.all, .dp .cpyDp⟩,
  ⟨.all, .dp .cmpDp⟩,
  ⟨.all, .dp .decDp⟩,
  ⟨.only816, .dp .cmpDpIndLong⟩,
  ⟨.all, .imp .iny⟩,
  ⟨.all, .immM .cmpImm⟩,
  ⟨.all, .imp .dex⟩,
  ⟨.only816, .imp .wai⟩,
  ⟨.all, .abs .cpyAbs⟩,
  ⟨.all, .abs .cmpAbs⟩,
  ⟨.all, .abs .decAbs⟩,
  ⟨.only816, .long .cmpLong⟩]

/-- Row D of the map of R95: opcodes 0xD0 to 0xDF. -/
def opcodeRowD : List Row := [
  ⟨.all, .rel8 .bne⟩,
  ⟨.all, .dp .cmpDpIndY⟩,
  ⟨.cmos, .dp .cmpDpInd⟩,
  ⟨.only816, .sr .cmpSrIndY⟩,
  ⟨.only816, .dp .pei⟩,
  ⟨.all, .dp .cmpDpX⟩,
  ⟨.all, .dp .decDpX⟩,
  ⟨.only816, .dp .cmpDpIndLongY⟩,
  ⟨.all, .imp .cld⟩,
  ⟨.all, .abs .cmpAbsY⟩,
  ⟨.cmos, .imp .phx⟩,
  ⟨.only816, .imp .stp⟩,
  ⟨.only816, .abs .jmpAbsIndLong⟩,
  ⟨.all, .abs .cmpAbsX⟩,
  ⟨.all, .abs .decAbsX⟩,
  ⟨.only816, .long .cmpLongX⟩]

/-- Row E of the map of R95: opcodes 0xE0 to 0xEF. -/
def opcodeRowE : List Row := [
  ⟨.all, .immX .cpxImm⟩,
  ⟨.all, .dp .sbcDpXInd⟩,
  ⟨.only816, .imm8 .sep⟩,
  ⟨.only816, .sr .sbcSr⟩,
  ⟨.all, .dp .cpxDp⟩,
  ⟨.all, .dp .sbcDp⟩,
  ⟨.all, .dp .incDp⟩,
  ⟨.only816, .dp .sbcDpIndLong⟩,
  ⟨.all, .imp .inx⟩,
  ⟨.all, .immM .sbcImm⟩,
  ⟨.all, .imp .nop⟩,
  ⟨.only816, .imp .xba⟩,
  ⟨.all, .abs .cpxAbs⟩,
  ⟨.all, .abs .sbcAbs⟩,
  ⟨.all, .abs .incAbs⟩,
  ⟨.only816, .long .sbcLong⟩]

/-- Row F of the map of R95: opcodes 0xF0 to 0xFF. -/
def opcodeRowF : List Row := [
  ⟨.all, .rel8 .beq⟩,
  ⟨.all, .dp .sbcDpIndY⟩,
  ⟨.cmos, .dp .sbcDpInd⟩,
  ⟨.only816, .sr .sbcSrIndY⟩,
  ⟨.only816, .abs .pea⟩,
  ⟨.all, .dp .sbcDpX⟩,
  ⟨.all, .dp .incDpX⟩,
  ⟨.only816, .dp .sbcDpIndLongY⟩,
  ⟨.all, .imp .sed⟩,
  ⟨.all, .abs .sbcAbsY⟩,
  ⟨.cmos, .imp .plx⟩,
  ⟨.only816, .imp .xce⟩,
  ⟨.only816, .abs .jsrAbsXInd⟩,
  ⟨.all, .abs .sbcAbsX⟩,
  ⟨.all, .abs .incAbsX⟩,
  ⟨.only816, .long .sbcLongX⟩]

/-- The opcode map, 256 rows in the order of the opcode byte (30_encoding.md R95). -/
def opcodeMap : List Row :=
  opcodeRow0 ++ opcodeRow1 ++ opcodeRow2 ++ opcodeRow3 ++ opcodeRow4 ++ opcodeRow5 ++ opcodeRow6 ++ opcodeRow7 ++
  opcodeRow8 ++ opcodeRow9 ++ opcodeRowA ++ opcodeRowB ++ opcodeRowC ++ opcodeRowD ++ opcodeRowE ++ opcodeRowF

/-- The row of an opcode byte, if the variant has it (30_encoding.md R94, R97). -/
def opcodeRow? (v : Variant) (op : Byte) : Option Row :=
  match opcodeMap[op.toNat]? with
  | some r => if r.avail.on v then some r else none
  | none => none

/-! ## Lengths (30_encoding.md R91, R92) -/

/-- The number of bytes of a constant of this width. -/
def Width.bytes : Width → Nat
  | .w8 => 1
  | .w16 => 2

/-- How many operand bytes follow the opcode; the twelve immediates of R92 depend on the widths in force. -/
def Build.operandBytes (wm wx : Width) : Build → Nat
  | .imp _ => 0
  | .sig _ => 1
  | .imm8 _ => 1
  | .immM _ => wm.bytes
  | .immX _ => wx.bytes
  | .dp _ => 1
  | .sr _ => 1
  | .abs _ => 2
  | .long _ => 3
  | .rel8 _ => 1
  | .rel16 _ => 2
  | .blk _ => 2

/-- The constant of an immediate: `imm8 = o1` or `imm16 = o2 : o1` (30_encoding.md R93). -/
def Width.imm : Width → Byte → Byte → Word
  | .w8, o1, _ => wordOf o1 0
  | .w16, o1, o2 => wordOf o1 o2

/-- The instruction of a row from its operand bytes `o1`, `o2`, `o3` (30_encoding.md R93); bytes past its length are
not looked at. -/
def Build.apply (wm wx : Width) (o1 o2 o3 : Byte) : Build → Instr
  | .imp i => i
  | .sig f => f o1
  | .imm8 f => f o1
  | .immM f => f (wm.imm o1 o2)
  | .immX f => f (wx.imm o1 o2)
  | .dp f => f o1
  | .sr f => f o1
  | .abs f => f (wordOf o1 o2)
  | .long f => f (addrOf o3 (wordOf o1 o2))
  | .rel8 f => f o1
  | .rel16 f => f (wordOf o1 o2)
  | .blk f => f o1 o2

/-! ## The decoder -/

/-- Why bytes are refused. -/
inductive DecodeError where
  /-- The variant does not have this opcode (30_encoding.md R97). -/
  | illegalOpcode (op : Byte)
  /-- The bytes end before the instruction does. -/
  | truncated (op : Byte)
  /-- There is no byte. -/
  | empty
  deriving DecidableEq, Repr

/-- What the decoder answers: an instruction and the bytes after it, or a named error. -/
inductive Decoded where
  | ok (i : Instr) (rest : List Byte)
  | error (e : DecodeError)
  deriving DecidableEq, Repr

/-- The decoding procedure of 30_encoding.md R94, on a list of bytes. -/
def decode (v : Variant) (wm wx : Width) : List Byte → Decoded
  | [] => .error .empty
  | op :: bytes =>
    match opcodeRow? v op with
    | none => .error (.illegalOpcode op)
    | some r =>
      let n := r.build.operandBytes wm wx
      if bytes.length < n then .error (.truncated op)
      else .ok (r.build.apply wm wx (bytes.getD 0 0) (bytes.getD 1 0) (bytes.getD 2 0)) (bytes.drop n)

/-! ## The encoder -/

/-- The opcode byte of an instruction, from the encoding tables of the instruction files (41_arithmetic.md R172,
42_binary.md R192, 43_program_flow.md R234, 44_registers.md R271, R272, 45_stack.md R302, 46_interrupt_instructions.md
R316, 47_miscellaneous.md R328). -/
def Instr.opcode : Instr → Byte
  | .brk _ => 0x00
  | .oraDpXInd _ => 0x01
  | .cop _ => 0x02
  | .oraSr _ => 0x03
  | .tsbDp _ => 0x04
  | .oraDp _ => 0x05
  | .aslDp _ => 0x06
  | .oraDpIndLong _ => 0x07
  | .php => 0x08
  | .oraImm _ => 0x09
  | .aslA => 0x0A
  | .phd => 0x0B
  | .tsbAbs _ => 0x0C
  | .oraAbs _ => 0x0D
  | .aslAbs _ => 0x0E
  | .oraLong _ => 0x0F
  | .bpl _ => 0x10
  | .oraDpIndY _ => 0x11
  | .oraDpInd _ => 0x12
  | .oraSrIndY _ => 0x13
  | .trbDp _ => 0x14
  | .oraDpX _ => 0x15
  | .aslDpX _ => 0x16
  | .oraDpIndLongY _ => 0x17
  | .clc => 0x18
  | .oraAbsY _ => 0x19
  | .incA => 0x1A
  | .tcs => 0x1B
  | .trbAbs _ => 0x1C
  | .oraAbsX _ => 0x1D
  | .aslAbsX _ => 0x1E
  | .oraLongX _ => 0x1F
  | .jsrAbs _ => 0x20
  | .andDpXInd _ => 0x21
  | .jsl _ => 0x22
  | .andSr _ => 0x23
  | .bitDp _ => 0x24
  | .andDp _ => 0x25
  | .rolDp _ => 0x26
  | .andDpIndLong _ => 0x27
  | .plp => 0x28
  | .andImm _ => 0x29
  | .rolA => 0x2A
  | .pld => 0x2B
  | .bitAbs _ => 0x2C
  | .andAbs _ => 0x2D
  | .rolAbs _ => 0x2E
  | .andLong _ => 0x2F
  | .bmi _ => 0x30
  | .andDpIndY _ => 0x31
  | .andDpInd _ => 0x32
  | .andSrIndY _ => 0x33
  | .bitDpX _ => 0x34
  | .andDpX _ => 0x35
  | .rolDpX _ => 0x36
  | .andDpIndLongY _ => 0x37
  | .sec => 0x38
  | .andAbsY _ => 0x39
  | .decA => 0x3A
  | .tsc => 0x3B
  | .bitAbsX _ => 0x3C
  | .andAbsX _ => 0x3D
  | .rolAbsX _ => 0x3E
  | .andLongX _ => 0x3F
  | .rti => 0x40
  | .eorDpXInd _ => 0x41
  | .wdm _ => 0x42
  | .eorSr _ => 0x43
  | .mvp _ _ => 0x44
  | .eorDp _ => 0x45
  | .lsrDp _ => 0x46
  | .eorDpIndLong _ => 0x47
  | .pha => 0x48
  | .eorImm _ => 0x49
  | .lsrA => 0x4A
  | .phk => 0x4B
  | .jmpAbs _ => 0x4C
  | .eorAbs _ => 0x4D
  | .lsrAbs _ => 0x4E
  | .eorLong _ => 0x4F
  | .bvc _ => 0x50
  | .eorDpIndY _ => 0x51
  | .eorDpInd _ => 0x52
  | .eorSrIndY _ => 0x53
  | .mvn _ _ => 0x54
  | .eorDpX _ => 0x55
  | .lsrDpX _ => 0x56
  | .eorDpIndLongY _ => 0x57
  | .cli => 0x58
  | .eorAbsY _ => 0x59
  | .phy => 0x5A
  | .tcd => 0x5B
  | .jmpLong _ => 0x5C
  | .eorAbsX _ => 0x5D
  | .lsrAbsX _ => 0x5E
  | .eorLongX _ => 0x5F
  | .rts => 0x60
  | .adcDpXInd _ => 0x61
  | .per _ => 0x62
  | .adcSr _ => 0x63
  | .stzDp _ => 0x64
  | .adcDp _ => 0x65
  | .rorDp _ => 0x66
  | .adcDpIndLong _ => 0x67
  | .pla => 0x68
  | .adcImm _ => 0x69
  | .rorA => 0x6A
  | .rtl => 0x6B
  | .jmpAbsInd _ => 0x6C
  | .adcAbs _ => 0x6D
  | .rorAbs _ => 0x6E
  | .adcLong _ => 0x6F
  | .bvs _ => 0x70
  | .adcDpIndY _ => 0x71
  | .adcDpInd _ => 0x72
  | .adcSrIndY _ => 0x73
  | .stzDpX _ => 0x74
  | .adcDpX _ => 0x75
  | .rorDpX _ => 0x76
  | .adcDpIndLongY _ => 0x77
  | .sei => 0x78
  | .adcAbsY _ => 0x79
  | .ply => 0x7A
  | .tdc => 0x7B
  | .jmpAbsXInd _ => 0x7C
  | .adcAbsX _ => 0x7D
  | .rorAbsX _ => 0x7E
  | .adcLongX _ => 0x7F
  | .bra _ => 0x80
  | .staDpXInd _ => 0x81
  | .brl _ => 0x82
  | .staSr _ => 0x83
  | .styDp _ => 0x84
  | .staDp _ => 0x85
  | .stxDp _ => 0x86
  | .staDpIndLong _ => 0x87
  | .dey => 0x88
  | .bitImm _ => 0x89
  | .txa => 0x8A
  | .phb => 0x8B
  | .styAbs _ => 0x8C
  | .staAbs _ => 0x8D
  | .stxAbs _ => 0x8E
  | .staLong _ => 0x8F
  | .bcc _ => 0x90
  | .staDpIndY _ => 0x91
  | .staDpInd _ => 0x92
  | .staSrIndY _ => 0x93
  | .styDpX _ => 0x94
  | .staDpX _ => 0x95
  | .stxDpY _ => 0x96
  | .staDpIndLongY _ => 0x97
  | .tya => 0x98
  | .staAbsY _ => 0x99
  | .txs => 0x9A
  | .txy => 0x9B
  | .stzAbs _ => 0x9C
  | .staAbsX _ => 0x9D
  | .stzAbsX _ => 0x9E
  | .staLongX _ => 0x9F
  | .ldyImm _ => 0xA0
  | .ldaDpXInd _ => 0xA1
  | .ldxImm _ => 0xA2
  | .ldaSr _ => 0xA3
  | .ldyDp _ => 0xA4
  | .ldaDp _ => 0xA5
  | .ldxDp _ => 0xA6
  | .ldaDpIndLong _ => 0xA7
  | .tay => 0xA8
  | .ldaImm _ => 0xA9
  | .tax => 0xAA
  | .plb => 0xAB
  | .ldyAbs _ => 0xAC
  | .ldaAbs _ => 0xAD
  | .ldxAbs _ => 0xAE
  | .ldaLong _ => 0xAF
  | .bcs _ => 0xB0
  | .ldaDpIndY _ => 0xB1
  | .ldaDpInd _ => 0xB2
  | .ldaSrIndY _ => 0xB3
  | .ldyDpX _ => 0xB4
  | .ldaDpX _ => 0xB5
  | .ldxDpIdx _ => 0xB6
  | .ldaDpIndLongY _ => 0xB7
  | .clv => 0xB8
  | .ldaAbsY _ => 0xB9
  | .tsx => 0xBA
  | .tyx => 0xBB
  | .ldyAbsX _ => 0xBC
  | .ldaAbsX _ => 0xBD
  | .ldxAbsIdx _ => 0xBE
  | .ldaLongX _ => 0xBF
  | .cpyImm _ => 0xC0
  | .cmpDpXInd _ => 0xC1
  | .rep _ => 0xC2
  | .cmpSr _ => 0xC3
  | .cpyDp _ => 0xC4
  | .cmpDp _ => 0xC5
  | .decDp _ => 0xC6
  | .cmpDpIndLong _ => 0xC7
  | .iny => 0xC8
  | .cmpImm _ => 0xC9
  | .dex => 0xCA
  | .wai => 0xCB
  | .cpyAbs _ => 0xCC
  | .cmpAbs _ => 0xCD
  | .decAbs _ => 0xCE
  | .cmpLong _ => 0xCF
  | .bne _ => 0xD0
  | .cmpDpIndY _ => 0xD1
  | .cmpDpInd _ => 0xD2
  | .cmpSrIndY _ => 0xD3
  | .pei _ => 0xD4
  | .cmpDpX _ => 0xD5
  | .decDpX _ => 0xD6
  | .cmpDpIndLongY _ => 0xD7
  | .cld => 0xD8
  | .cmpAbsY _ => 0xD9
  | .phx => 0xDA
  | .stp => 0xDB
  | .jmpAbsIndLong _ => 0xDC
  | .cmpAbsX _ => 0xDD
  | .decAbsX _ => 0xDE
  | .cmpLongX _ => 0xDF
  | .cpxImm _ => 0xE0
  | .sbcDpXInd _ => 0xE1
  | .sep _ => 0xE2
  | .sbcSr _ => 0xE3
  | .cpxDp _ => 0xE4
  | .sbcDp _ => 0xE5
  | .incDp _ => 0xE6
  | .sbcDpIndLong _ => 0xE7
  | .inx => 0xE8
  | .sbcImm _ => 0xE9
  | .nop => 0xEA
  | .xba => 0xEB
  | .cpxAbs _ => 0xEC
  | .sbcAbs _ => 0xED
  | .incAbs _ => 0xEE
  | .sbcLong _ => 0xEF
  | .beq _ => 0xF0
  | .sbcDpIndY _ => 0xF1
  | .sbcDpInd _ => 0xF2
  | .sbcSrIndY _ => 0xF3
  | .pea _ => 0xF4
  | .sbcDpX _ => 0xF5
  | .incDpX _ => 0xF6
  | .sbcDpIndLongY _ => 0xF7
  | .sed => 0xF8
  | .sbcAbsY _ => 0xF9
  | .plx => 0xFA
  | .xce => 0xFB
  | .jsrAbsXInd _ => 0xFC
  | .sbcAbsX _ => 0xFD
  | .incAbsX _ => 0xFE
  | .sbcLongX _ => 0xFF

/-- The bytes of a constant, low byte first (30_encoding.md R93). -/
def Width.immBytes : Width → Word → List Byte
  | .w8, k => [lowByte k]
  | .w16, k => [lowByte k, highByte k]

/-- The operand bytes of an instruction, in memory order (30_encoding.md R91, R93). -/
def Operand.bytes (wm wx : Width) : Operand → List Byte
  | .imp => []
  | .sig b => [b]
  | .imm8 k => [k]
  | .immM k => wm.immBytes k
  | .immX k => wx.immBytes k
  | .dp o1 => [o1]
  | .sr o1 => [o1]
  | .abs a => [lowByte a, highByte a]
  | .long l => [lowByte l.offset, highByte l.offset, l.bank]
  | .rel8 b => [b]
  | .rel16 d => [lowByte d, highByte d]
  | .blk o1 o2 => [o1, o2]

/-- The bytes of an instruction at widths `wm` and `wx` (30_encoding.md R90 to R93). -/
def encode (wm wx : Width) (i : Instr) : List Byte :=
  i.opcode :: i.operand.bytes wm wx

/-! ## One row of spec/opcode_table.json -/

/-- The four bytes of the number `w` read from its low `nbits` bits, the first byte in bits 7..0; bytes above are 0. -/
def tableBytes (nbits w : Nat) : List Byte :=
  let w := w % 2 ^ nbits
  [BitVec.ofNat 8 w, BitVec.ofNat 8 (w / 2 ^ 8), BitVec.ofNat 8 (w / 2 ^ 16), BitVec.ofNat 8 (w / 2 ^ 24)]

/-- The instruction the decoder reads from a table word, on the variant and at the widths of `State.reset`: a V65816
in emulation mode, both widths 8. -/
def decodeTableWord (nbits w : Nat) : Option Instr :=
  match decode Config.default.variant .w8 .w8 (tableBytes nbits w) with
  | .ok i _ => some i
  | .error _ => none

end Sys2Proof
end

