-- ==== Sys2Proof/Machine/State.lean ====
section
/-! DEFINITION. The machine's state as plain data: the spec's registers, run state and memory (10_state.md R20 to R43),
the parameters of the launch (00_scope.md R5), what the environment is going to do (60_exceptions.md R345), and the
counter of free draws. Faults and refusals. -/

namespace Sys2Proof.Machine

/-- The processors raise nothing on any instruction, operand or address (00_scope.md R12, 60_exceptions.md R342), so no
step faults: there is no constructor (log 30). Safe and unsafe do not arise. -/
inductive Fault
  deriving DecidableEq, Repr

/-- Why the model gives a step no meaning. -/
inductive Refusal where
  /-- Raised by an arm of `exec` whose instruction has no meaning yet; no arm is left in that state. Safe: the run stops
  where the hardware goes on. -/
  | notModelled (mnemonic : String)
  /-- `refuse IllegalOpcode`: the fetch raises it for an opcode byte the variant does not have (30_encoding.md R97).
  Safe: the run stops where some parts go on. -/
  | illegalOpcode (op : Byte)
  /-- `refuse DeviceAccessSequence`: a byte access raises it at an address that `MemoryMap` gives to a device, whose
  behaviour is outside the spec (20_memory.md R68). Safe: the run stops where the hardware goes on. -/
  | deviceAccessSequence (a : Addr)
  /-- The boundary raises it when the environment asserts ABORT, which the spec does not describe (60_exceptions.md R349,
  93_implementation_defined.md U12). Safe: the run stops where the hardware goes on. -/
  | abortAsserted
  deriving DecidableEq, Repr

/-- The run state (10_state.md R41). -/
inductive RunState where
  | running
  /-- Entered by WAI, left by an interrupt or reset (46_interrupt_instructions.md R313). -/
  | waiting
  /-- Entered by STP, left only by reset (47_miscellaneous.md R327). -/
  | stopped
  deriving DecidableEq, Repr

/-- What the environment does before one step (60_exceptions.md R345). The spec's environment never asserts `abort`
(R349) nor `overflowPin` (10_state.md R42). -/
structure EnvInput where
  /-- The level of the IRQ input from now on. -/
  irqLine     : Bool
  /-- NMI is asserted anew: an edge. -/
  nmiEdge     : Bool
  /-- RESET is asserted at this boundary. -/
  reset       : Bool
  /-- ABORT is asserted at this boundary. -/
  abort       : Bool
  /-- The overflow pin is asserted at this boundary. -/
  overflowPin : Bool
  deriving DecidableEq, Repr

/-- Memory as (address, byte) pairs in canonical form: addresses strictly rising, no byte equal to what an unlisted
address reads as (log 3). -/
abbrev Memory := List Host.Cell

/-- The state. The registers are those of `V65816` (10_state.md R20); the 8-bit variants are embedded in it as R39
says. -/
structure State where
  /-- The parameters of the launch (00_scope.md R5); no step changes them. -/
  cfg        : Config
  /-- `C` = `B:A`, the accumulator (R21). -/
  c          : Word
  /-- `X` (R22). -/
  x          : Word
  /-- `Y` (R22). -/
  y          : Word
  /-- `S`, the stack pointer (R23). -/
  sp         : Word
  /-- `D`, the direct page register (R24). -/
  d          : Word
  /-- `DBR`, the data bank register (R25). -/
  dbr        : Byte
  /-- `PBR`, the program bank register (R26). -/
  pbr        : Byte
  /-- `PC` (R27). -/
  pc         : Word
  /-- `P`, the status register n v m x d i z c (R28); bits 5 and 4 are 1 where they are no flags (R37, R40). -/
  p          : Byte
  /-- `e`, the emulation bit (R38). -/
  e          : Bool
  /-- The run state (R41). -/
  run        : RunState
  /-- The NMI latch (R41). -/
  nmiPending : Bool
  /-- The present level of the IRQ input (R41). -/
  irqLine    : Bool
  /-- What the environment does before each coming step; when it is empty the environment does nothing more (log 7). -/
  inputs     : List EnvInput
  /-- Memory (20_memory.md R64). -/
  mem        : Memory
  /-- How many free values the run has drawn (00_scope.md R12, log 6). -/
  freeIndex  : Nat
  deriving DecidableEq, Repr

/-- The machine right after reset (10_state.md R43) for the parameters `cfg`, with no byte of memory listed. `PC` is the
reset vector read from that memory. DESIGN CHOICE (unsafe, log 4): what the spec leaves unspecified (A, B, the low bytes
of X, Y and S, n, v, z, c, and d on V6502) is 0. DESIGN CHOICE (unsafe, log 31): `PC` is 0 for every `cfg`, also where
`cfg.memMap` makes 00:FFFC or 00:FFFD Unmapped, whose read is `any(8)` each, or a device's, whose byte the spec does not
give (20_memory.md R68). -/
def State.resetOn (cfg : Config) : State where
  cfg        := cfg
  c          := 0
  x          := 0
  y          := 0
  sp         := 0x0100
  d          := 0
  dbr        := 0
  pbr        := 0
  pc         := 0
  p          := 0x34
  e          := true
  run        := .running
  nmiPending := false
  irqLine    := false
  inputs     := []
  mem        := []
  freeIndex  := 0

/-- The machine right after reset, on the launch of `Config.default` (log 1). -/
def State.reset : State := State.resetOn Config.default

end Sys2Proof.Machine
end

