-- ==== Sys2Proof/Machine/Flags.lean ====
section
/-! DEFINITION. The bits of the status register, the arithmetic of the two widths, and every flag computation of the
instruction files. Data of width 8 is held in a `Word` with its high byte 0. -/

namespace Sys2Proof.Machine

/-! ## The status register (10_state.md R28) -/

/-- The flags of P, by name. -/
inductive Flag where
  | n | v | m | x | d | i | z | c
  deriving DecidableEq, Repr

/-- The bit of P that holds a flag (10_state.md R28). -/
def Flag.bit : Flag → Nat
  | .n => 7
  | .v => 6
  | .m => 5
  | .x => 4
  | .d => 3
  | .i => 2
  | .z => 1
  | .c => 0

/-- Read one flag of a status byte. -/
def getFlag (p : Byte) (f : Flag) : Bool := p.getLsbD f.bit

/-- Write one flag of a status byte, leaving the others. -/
def putFlag (p : Byte) (f : Flag) (b : Bool) : Byte :=
  if b then p ||| (1#8 <<< f.bit) else p &&& ~~~(1#8 <<< f.bit)

/-- Read one flag of P. -/
def State.flag (s : State) (f : Flag) : Bool := getFlag s.p f

/-- Write one flag of P. -/
def State.setFlag (s : State) (f : Flag) (b : Bool) : State := { s with p := putFlag s.p f b }

/-! ## Modes and widths (00_scope.md R9) -/

/-- Is this a `V65816`? -/
def State.is816 (s : State) : Bool := s.cfg.variant == .v65816

/-- `e = 1`; the variants without `e` count as `e = 1` (10_state.md R38). -/
def State.emulation (s : State) : Bool := !s.is816 || s.e

/-- `WM`, the accumulator and memory width. -/
def State.wm (s : State) : Width :=
  if s.emulation then .w8 else if s.flag .m then .w8 else .w16

/-- `WX`, the index register width. -/
def State.wx (s : State) : Width :=
  if s.emulation then .w8 else if s.flag .x then .w8 else .w16

/-! ## Arithmetic of a width -/

/-- The number of bits. -/
def widthBits : Width → Nat
  | .w8 => 8
  | .w16 => 16

/-- `2^w`. -/
def modulus (w : Width) : Nat := 2 ^ widthBits w

/-- `v[w-1:0]`. -/
def trunc : Width → Word → Word
  | .w8, v => v &&& 0x00FF
  | .w16, v => v

/-- `v[w-1]`, the most significant bit. -/
def msb (w : Width) (v : Word) : Bool := v.getLsbD (widthBits w - 1)

/-- `n mod 2^w` as data of width `w`. -/
def ofNatMod (w : Width) (n : Nat) : Word := BitVec.ofNat 16 (n % modulus w)

/-- `n mod 2^w` of an integer as data of width `w`. -/
def ofIntMod (w : Width) (n : Int) : Word := BitVec.ofNat 16 (n % (modulus w : Int)).toNat

/-- `SetNZ(v, w)` (00_scope.md R10). -/
def State.setNZ (s : State) (w : Width) (v : Word) : State :=
  (s.setFlag .n (msb w v)).setFlag .z (trunc w v == 0)

/-! ## Add and subtract, binary (41_arithmetic.md R162, R170) -/

/-- `a + m + P.c` as an integer. -/
def addSum (a m : Word) (c : Bool) : Nat := a.toNat + m.toNat + c.toNat

/-- `r` of R162. -/
def addResult (w : Width) (a m : Word) (c : Bool) : Word := ofNatMod w (addSum a m c)

/-- `P.c` of R162. -/
def addCarry (w : Width) (a m : Word) (c : Bool) : Bool := decide (addSum a m c ≥ modulus w)

/-- `P.v` of R162. -/
def addOverflow (w : Width) (a m : Word) (c : Bool) : Bool :=
  msb w a == msb w m && msb w (addResult w a m c) != msb w a

/-- `a - m - (1 - P.c)` as an integer. -/
def subDiff (a m : Word) (c : Bool) : Int := (a.toNat : Int) - m.toNat - (1 - c.toNat)

/-- `r` of R170. -/
def subResult (w : Width) (a m : Word) (c : Bool) : Word := ofIntMod w (subDiff a m c)

/-- `P.c` of R170: no borrow. -/
def subCarry (a m : Word) (c : Bool) : Bool := decide (0 ≤ subDiff a m c)

/-- `P.v` of R170. -/
def subOverflow (w : Width) (a m : Word) (c : Bool) : Bool :=
  msb w a != msb w m && msb w (subResult w a m c) != msb w a

/-! ## Binary Coded Decimal (41_arithmetic.md R161) -/

/-- The number of digits, `w / 4`. -/
def bcdDigits (w : Width) : Nat := widthBits w / 4

/-- Are the low `k` four-bit groups all in 0..9? -/
def bcdValid : Nat → Nat → Bool
  | 0, _ => true
  | k + 1, v => decide (v % 16 ≤ 9) && bcdValid k (v / 16)

/-- The number that `k` digits denote. -/
def bcdVal : Nat → Nat → Nat
  | 0, _ => 0
  | k + 1, v => v % 16 + 10 * bcdVal k (v / 16)

/-- `bcd(n, w)`: `n` written in `k` digits. -/
def bcdOf : Nat → Nat → Nat
  | 0, _ => 0
  | k + 1, n => n % 10 + 16 * bcdOf k (n / 10)

/-- Valid BCD of width `w`. -/
def validBcd (w : Width) (v : Word) : Bool := bcdValid (bcdDigits w) v.toNat

/-- `bcdval(a) + bcdval(m) + P.c` (R163). -/
def bcdSum (w : Width) (a m : Word) (c : Bool) : Nat :=
  bcdVal (bcdDigits w) a.toNat + bcdVal (bcdDigits w) m.toNat + c.toNat

/-- `bcdval(a) - bcdval(m) - (1 - P.c)` (R171). -/
def bcdDiff (w : Width) (a m : Word) (c : Bool) : Int :=
  (bcdVal (bcdDigits w) a.toNat : Int) - bcdVal (bcdDigits w) m.toNat - (1 - c.toNat)

/-- `r` of R163 for valid operands. -/
def bcdAddResult (w : Width) (a m : Word) (c : Bool) : Word :=
  BitVec.ofNat 16 (bcdOf (bcdDigits w) (bcdSum w a m c % 10 ^ bcdDigits w))

/-- `P.c` of R163 for valid operands. -/
def bcdAddCarry (w : Width) (a m : Word) (c : Bool) : Bool := decide (bcdSum w a m c ≥ 10 ^ bcdDigits w)

/-- `r` of R171 for valid operands. -/
def bcdSubResult (w : Width) (a m : Word) (c : Bool) : Word :=
  BitVec.ofNat 16 (bcdOf (bcdDigits w) (bcdDiff w a m c % (10 ^ bcdDigits w : Nat)).toNat)

/-- `P.c` of R171 for valid operands. -/
def bcdSubCarry (w : Width) (a m : Word) (c : Bool) : Bool := decide (0 ≤ bcdDiff w a m c)

/-! ## Shifts and rotates (42_binary.md R185 to R189): the result and the bit shifted out -/

/-- ASL (R186). -/
def aslResult (w : Width) (v : Word) : Word := trunc w (v <<< 1)

/-- LSR (R187). -/
def lsrResult (v : Word) : Word := v >>> 1

/-- ROL (R188). -/
def rolResult (w : Width) (v : Word) (c : Bool) : Word := trunc w (v <<< 1) ||| (if c then 1 else 0)

/-- ROR (R189). -/
def rorResult (w : Width) (v : Word) (c : Bool) : Word :=
  (v >>> 1) ||| (if c then 1#16 <<< (widthBits w - 1) else 0)

/-- The flags of the four shifts, `n-----zc`: `out` is the bit shifted out (R185). -/
def State.shiftFlags (s : State) (w : Width) (r : Word) (out : Bool) : State :=
  (s.setFlag .c out).setNZ w r

/-! ## Compare (43_program_flow.md R210) -/

/-- The flags of a compare of `a` with `m`, `n-----zc`; v, the carry in and d take no part. -/
def State.compareFlags (s : State) (w : Width) (a m : Word) : State :=
  (s.setFlag .c (decide (m.toNat ≤ a.toNat))).setNZ w (ofIntMod w ((a.toNat : Int) - m.toNat))

/-! ## Bit tests (42_binary.md R182, R190, R191) -/

/-- z of BIT, TRB and TSB: the AND of accumulator and memory is zero. -/
def State.testFlag (s : State) (a m : Word) : State := s.setFlag .z (a &&& m == 0)

/-- The flags of BIT on a memory operand: n and v are its two top bits, z the test. -/
def State.bitFlags (s : State) (w : Width) (a m : Word) : State :=
  ((s.setFlag .n (m.getLsbD (widthBits w - 1))).setFlag .v (m.getLsbD (widthBits w - 2))).testFlag a m

end Sys2Proof.Machine
end

