-- ==== Sys2Proof/Machine/Memory.lean ====
section
/-! DEFINITION. Memory: the canonical list, `MemoryMap`, the byte accesses and the access primitives of 20_memory.md. -/

namespace Sys2Proof.Machine

/-! ## The list of cells -/

/-- What an address that the list does not hold reads as. DESIGN CHOICE (unsafe, log 3): 0x00, as the spec's test
vectors take it; the spec leaves power-on memory to the platform (10_state.md R43). -/
def Memory.unlisted : Byte := 0x00

/-- The byte at an address. -/
def Memory.read : Memory → Nat → Byte
  | [], _ => Memory.unlisted
  | (k, v) :: m, a => if k = a then v else Memory.read m a

/-- A byte in front of a list whose addresses are all higher, left out when it is the unlisted byte. -/
def Memory.cons (a : Nat) (b : Byte) (m : Memory) : Memory :=
  if b = Memory.unlisted then m else (a, b) :: m

/-- Drop what the list says of an address. -/
def Memory.erase : Memory → Nat → Memory
  | [], _ => []
  | (k, v) :: m, a => if k = a then Memory.erase m a else (k, v) :: Memory.erase m a

/-- Put a byte in its place, in front of the first higher address. -/
def Memory.insert : Memory → Nat → Byte → Memory
  | [], a, b => Memory.cons a b []
  | (k, v) :: m, a, b =>
    if k < a then (k, v) :: Memory.insert m a b else Memory.cons a b ((k, v) :: m)

/-- Put a byte at an address, keeping the canonical form. -/
def Memory.write (m : Memory) (a : Nat) (b : Byte) : Memory := Memory.insert (Memory.erase m a) a b

/-- Every address is at least `lo` and below 2^24, the addresses rise strictly, and no byte is the unlisted byte. -/
def Memory.wfFrom : Nat → Memory → Bool
  | _, [] => true
  | lo, (k, v) :: m => decide (lo ≤ k) && decide (k < 2 ^ 24) && decide (v ≠ Memory.unlisted) && Memory.wfFrom (k + 1) m

/-- The canonical form. -/
def Memory.wf (m : Memory) : Bool := Memory.wfFrom 0 m

/-! ## What an access answers -/

/-- An access gives a value and the state after it, or has no meaning. -/
inductive Access (α : Type) where
  | ok (a : α) (s : State)
  | stop (r : Refusal)

/-- Go on with the value and the state. -/
def Access.bind {α β : Type} (x : Access α) (f : α → State → Access β) : Access β :=
  match x with
  | .ok a s => f a s
  | .stop r => .stop r

/-- What an instruction answers. -/
abbrev Result := Host.Outcome State Fault Refusal

/-- End an instruction: the machine's answer from the value and the state. -/
def Access.andThen {α : Type} (x : Access α) (f : α → State → Result) : Result :=
  match x with
  | .ok a s => f a s
  | .stop r => .refused r

/-! ## Free values (00_scope.md R12) -/

/-- `any(w)`: the next free value. -/
def State.draw (s : State) (w : Nat) : BitVec w := Config.freeValue w s.freeIndex

/-- The state after a draw, so that the next one is fresh. -/
def State.drawn (s : State) : State := { s with freeIndex := s.freeIndex + 1 }

/-! ## `MemoryMap` (20_memory.md R68) -/

/-- The kind that the regions give an address. -/
def kindIn : List Region → Nat → MemKind
  | [], _ => .ram
  | r :: rs, a => if r.base ≤ a ∧ a < r.base + r.size then r.kind else kindIn rs a

/-- The address as it leaves the chip: on the 65802 every bank aliases bank 0 (20_memory.md R60, log 15). -/
def busAddr (cfg : Config) (a : Addr) : Addr :=
  if cfg.memMap.banksAlias then addrOf 0 a.offset else a

/-- What stands at an address. -/
def kindAt (cfg : Config) (a : Addr) : MemKind := kindIn cfg.memMap.regions (busAddr cfg a).toNat

/-- The byte that memory holds at an address, whatever `MemoryMap` says of it. -/
def State.cell (s : State) (a : Addr) : Byte := s.mem.read (busAddr s.cfg a).toNat

/-- The state with a byte put at an address, whatever `MemoryMap` says of it. -/
def State.putCell (s : State) (a : Addr) (b : Byte) : State :=
  { s with mem := s.mem.write (busAddr s.cfg a).toNat b }

/-- `read8` (20_memory.md R68). DEDUCED (safe): each read of an unmapped address is a new free draw (log 25); a read of a
device is refused by name (log 14). -/
def read8 (a : Addr) (s : State) : Access Byte :=
  match kindAt s.cfg a with
  | .ram => .ok (s.cell a) s
  | .rom => .ok (s.cell a) s
  | .unmapped => .ok (s.draw 8) s.drawn
  | .device => .stop (.deviceAccessSequence a)

/-- `write8` (20_memory.md R68). DEDUCED (safe, log 14): a write to a device is refused by name. -/
def write8 (a : Addr) (b : Byte) (s : State) : Access Unit :=
  match kindAt s.cfg a with
  | .ram => .ok () (s.putCell a b)
  | .rom => .ok () s
  | .unmapped => .ok () s
  | .device => .stop (.deviceAccessSequence a)

/-! ## Multi-byte accesses (20_memory.md R64) -/

/-- How the successor of an address is taken. -/
inductive Wrap where
  /-- Linearly, mod 2^AW. -/
  | lin
  /-- Inside the 64 KiB bank. -/
  | bank
  /-- Inside the 256-byte page. -/
  | page
  deriving DecidableEq, Repr

/-- `succ(a, wrap)`. On the 8-bit variants AW is 16, so `lin` is `bank` there. -/
def State.succ (s : State) (a : Addr) : Wrap → Addr
  | .lin => if s.is816 then a + 1 else addrOf a.bank (a.offset + 1)
  | .bank => addrOf a.bank (a.offset + 1)
  | .page => addrOf a.bank (wordOf (lowByte a.offset + 1) (highByte a.offset))

/-- `MemReadW(a, 2, wrap)`: the low byte first (20_memory.md R61). -/
def read16 (a : Addr) (wrap : Wrap) (s : State) : Access Word :=
  (read8 a s).bind fun lo s1 =>
  (read8 (s.succ a wrap) s1).bind fun hi s2 =>
  .ok (wordOf lo hi) s2

/-- `MemReadW(a, 3, wrap)`: low, high, bank. -/
def read24 (a : Addr) (wrap : Wrap) (s : State) : Access Addr :=
  (read16 a wrap s).bind fun w s1 =>
  (read8 (s.succ (s.succ a wrap) wrap) s1).bind fun b s2 =>
  .ok (addrOf b w) s2

/-- `MemReadW(a, w/8, wrap)`. -/
def load (w : Width) (a : Addr) (wrap : Wrap) (s : State) : Access Word :=
  match w with
  | .w8 => (read8 a s).bind fun b s1 => .ok (wordOf b 0) s1
  | .w16 => read16 a wrap s

/-- `MemWriteW(a, w/8, v, wrap)`: the low byte first. -/
def store (w : Width) (a : Addr) (wrap : Wrap) (v : Word) (s : State) : Access Unit :=
  match w with
  | .w8 => write8 a (lowByte v) s
  | .w16 => (write8 a (lowByte v) s).bind fun _ s1 => write8 (s.succ a wrap) (highByte v) s1

/-- The addresses that `store` writes. -/
def storedBytes (w : Width) (a : Addr) (wrap : Wrap) (s : State) : List Addr :=
  match w with
  | .w8 => [a]
  | .w16 => [a, s.succ a wrap]

end Sys2Proof.Machine
end

