-- ==== Sys2Proof/Machine/Ops.lean ====
section
/-! DEFINITION. The named operations over registers, the stack and control: register access (00_scope.md R10), the step of
PC (R13), push and pull (45_stack.md R280 to R283), taking an interrupt and returning from one (60_exceptions.md R340,
46_interrupt_instructions.md R312), reset (70_reset_and_hazards.md R380), instruction fetch (30_encoding.md R94). -/

namespace Sys2Proof.Machine

/-! ## Registers -/

/-- `AccRead()` at width `w`. -/
def State.accRead (s : State) (w : Width) : Word := trunc w s.c

/-- `AccWrite(v)` at width `w`: B is unchanged when `w` is 8. -/
def State.accWrite (s : State) (w : Width) (v : Word) : State :=
  match w with
  | .w8 => { s with c := wordOf (lowByte v) (highByte s.c) }
  | .w16 => { s with c := v }

/-- `X` or `Y`, read whole. -/
def State.idx (s : State) (r : IdxReg) : Word :=
  match r with
  | .x => s.x
  | .y => s.y

/-- `IdxWrite(R, v)` at width `w`: bits 15..8 become 0 when `w` is 8. -/
def State.idxWrite (s : State) (r : IdxReg) (w : Width) (v : Word) : State :=
  match r with
  | .x => { s with x := trunc w v }
  | .y => { s with y := trunc w v }

/-- `X <- X & 0x00FF ; Y <- Y & 0x00FF`, what setting x does (10_state.md R22). -/
def State.clearIdxHigh (s : State) : State := { s with x := s.x &&& 0x00FF, y := s.y &&& 0x00FF }

/-- `D`; the 8-bit variants read 0 (40_addressing_modes.md R120). -/
def State.dReg (s : State) : Word := if s.is816 then s.d else 0

/-- `DBR`; the 8-bit variants read 0. -/
def State.dataBank (s : State) : Byte := if s.is816 then s.dbr else 0

/-- `PBR`; the 8-bit variants read 0. -/
def State.progBank (s : State) : Byte := if s.is816 then s.pbr else 0

/-- `PC <- (PC + n) mod 2^16` (00_scope.md R13). -/
def State.advance (s : State) (n : Nat) : State := { s with pc := s.pc + BitVec.ofNat 16 n }

/-- Load the whole status register from a pulled byte, as PLP and RTI do (45_stack.md R289, 46_interrupt_instructions.md
R312): in native mode all of it, x clearing the high bytes of X and Y; otherwise bits 5 and 4 stay 1. -/
def State.loadP (s : State) (v : Byte) : State :=
  if s.emulation then { s with p := (v &&& 0xCF) ||| 0x30 }
  else if getFlag v .x then ({ s with p := v } : State).clearIdxHigh
  else { s with p := v }

/-- `any(1)` written to a flag. -/
def State.drawFlag (s : State) (f : Flag) : State := (s.setFlag f (s.draw 1 == 1)).drawn

/-! ## The stack (45_stack.md R280 to R283) -/

/-- Where `S` points: `00:S`, on the 8-bit variants `0x0100 + S[7:0]`. -/
def State.stackAddr (s : State) : Addr :=
  if s.is816 then addrOf 0 s.sp else addrOf 0 (wordOf (lowByte s.sp) 0x01)

/-- `S` moved by `n`: inside page 1 in emulation mode and on the 8-bit variants, else mod 2^16. -/
def State.moveS (s : State) (n : Word) : State :=
  if s.emulation then { s with sp := wordOf (lowByte (s.sp + n)) 0x01 } else { s with sp := s.sp + n }

/-- `Push8(v)`. -/
def push8 (v : Byte) (s : State) : Access Unit :=
  (write8 s.stackAddr v s).bind fun _ s1 => .ok () (s1.moveS 0xFFFF)

/-- `Pull8()`. -/
def pull8 (s : State) : Access Byte := read8 (s.moveS 1).stackAddr (s.moveS 1)

/-- `Push16(v)`: the high byte, then the low byte. -/
def push16 (v : Word) (s : State) : Access Unit :=
  (push8 (highByte v) s).bind fun _ s1 => push8 (lowByte v) s1

/-- `Pull16()`: the low byte, then the high byte. -/
def pull16 (s : State) : Access Word :=
  (pull8 s).bind fun lo s1 => (pull8 s1).bind fun hi s2 => .ok (wordOf lo hi) s2

/-- Push data of width `w`. -/
def pushW (w : Width) (v : Word) (s : State) : Access Unit :=
  match w with
  | .w8 => push8 (lowByte v) s
  | .w16 => push16 v s

/-- Pull data of width `w`. -/
def pullW (w : Width) (s : State) : Access Word :=
  match w with
  | .w8 => (pull8 s).bind fun b s1 => .ok (wordOf b 0) s1
  | .w16 => pull16 s

/-! ## Taking an interrupt (60_exceptions.md R340 to R344) -/

/-- The kinds of interrupt that `Enter` serves. -/
inductive IntKind where
  | brk | cop | irq | nmi
  deriving DecidableEq, Repr

/-- `Vector(kind, e)` (60_exceptions.md R341); `true` is emulation mode or an 8-bit variant. -/
def vector : IntKind → Bool → Word
  | .cop, true => 0xFFF4
  | .cop, false => 0xFFE4
  | .brk, true => 0xFFFE
  | .brk, false => 0xFFE6
  | .nmi, true => 0xFFFA
  | .nmi, false => 0xFFEA
  | .irq, true => 0xFFFE
  | .irq, false => 0xFFEE

/-- `PushedP(kind)` (60_exceptions.md R344): in emulation mode and on the 8-bit variants bit 5 is 1 and bit 4 tells a
software interrupt from a hardware one; in native mode it is P. -/
def State.pushedP (s : State) (k : IntKind) : Byte :=
  if s.emulation then
    match k with
    | .brk => s.p ||| 0x30
    | .cop => s.p ||| 0x30
    | .irq => (s.p ||| 0x20) &&& 0xEF
    | .nmi => (s.p ||| 0x20) &&& 0xEF
  else s.p

/-- What `Enter` does to P and PBR after the pushes: i set, d cleared but on V6502 (R343), PBR 0 on V65816. -/
def State.enterFlags (s : State) : State :=
  let s1 := s.setFlag .i true
  let s2 := if s.cfg.variant = .v6502 then s1 else s1.setFlag .d false
  if s.is816 then { s2 with pbr := 0 } else s2

/-- The pushes of `Enter`: PBR in native mode, the return address, the status byte. -/
def pushFrame (k : IntKind) (ret : Word) (s : State) : Access Unit :=
  (if s.emulation then Access.ok () s else push8 s.pbr s).bind fun _ s1 =>
  (push16 ret s1).bind fun _ s2 =>
  push8 (s.pushedP k) s2

/-- `Enter(kind, ret)` (60_exceptions.md R340): the one entry sequence of every interrupt. -/
def enter (k : IntKind) (ret : Word) (s : State) : Result :=
  (pushFrame k ret s).andThen fun _ s1 =>
  (read16 (addrOf 0 (vector k s.emulation)) .lin s1.enterFlags).andThen fun target s2 =>
  .next { s2 with pc := target }

/-- Return from interrupt (46_interrupt_instructions.md R312): P, then PC, then PBR in native mode. The mode is the one
in force at the RTI. -/
def returnFromInterrupt (s : State) : Result :=
  (pull8 s).andThen fun v s1 =>
  (pull16 (s1.loadP v)).andThen fun target s2 =>
  if s.emulation then .next { s2 with pc := target }
  else (pull8 s2).andThen fun bank s3 => .next { s3 with pc := target, pbr := bank }

/-! ## Reset (70_reset_and_hazards.md R380) -/

/-- The registers a RESET event leaves, before PC is loaded: what R380 gives, and a fresh free value for everything it
leaves `any` (log 5). -/
def State.resetRegisters (s : State) : State :=
  let k := s.freeIndex
  let t : State := { s with
    run := .running, nmiPending := false, e := true
    c := wordOf (Config.freeValue 8 k) (Config.freeValue 8 (k + 1))
    x := wordOf (Config.freeValue 8 (k + 2)) 0
    y := wordOf (Config.freeValue 8 (k + 3)) 0
    sp := wordOf (Config.freeValue 8 (k + 4)) 0x01
    d := 0, dbr := 0, pbr := 0
    p := 0x34
    freeIndex := k + 5 }
  let t := (((t.drawFlag .n).drawFlag .v).drawFlag .z).drawFlag .c
  if s.cfg.variant = .v6502 then t.drawFlag .d else t

/-- A RESET event (R380): the registers, then PC from the vector at 00:FFFC. Nothing is pushed or written. -/
def resetEvent (s : State) : Result :=
  (read16 (addrOf 0 0xFFFC) .lin s.resetRegisters).andThen fun target s1 =>
  .next { s1 with pc := target }

/-! ## Instruction fetch (00_scope.md R12, 30_encoding.md R94) -/

/-- The address of instruction byte `k`: `PBR : (PC + k)`. -/
def State.fetchAddr (s : State) (k : Nat) : Addr := addrOf s.progBank (s.pc + BitVec.ofNat 16 k)

/-- Fetch instruction bytes `k`, `k + 1`, ..., `n` of them. -/
def fetchFrom (k : Nat) : Nat → State → Access (List Byte)
  | 0, s => .ok [] s
  | n + 1, s =>
    (read8 (s.fetchAddr k) s).bind fun b s1 =>
    (fetchFrom (k + 1) n s1).bind fun bs s2 =>
    .ok (b :: bs) s2

/-- Fetch and decode the instruction at PBR:PC under the variant and the widths in force (R94): the opcode byte, then
exactly as many bytes as its length says. -/
def fetchInstr (s : State) : Access Instr :=
  (read8 (s.fetchAddr 0) s).bind fun op s1 =>
  match opcodeRow? s.cfg.variant op with
  | none => .stop (.illegalOpcode op)
  | some r =>
    (fetchFrom 1 (r.build.operandBytes s.wm s.wx) s1).bind fun bs s2 =>
    .ok (r.build.apply s.wm s.wx (bs.getD 0 0) (bs.getD 1 0) (bs.getD 2 0)) s2

end Sys2Proof.Machine
end

