-- ==== Sys2Proof/Machine/Operands.lean ====
section
/-! DEFINITION. The addressing modes (40_addressing_modes.md R120 to R149) and the operands of data instructions
(41_arithmetic.md R160). -/

namespace Sys2Proof.Machine

/-- A memory operand, by addressing mode. -/
inductive Mode where
  /-- `dp` (R125). -/
  | dp (o1 : Byte)
  /-- `dp,X` and `dp,Y` (R126, R127). -/
  | dpIdx (r : IdxReg) (o1 : Byte)
  /-- `(dp)` (R130). -/
  | dpInd (o1 : Byte)
  /-- `(dp,X)` (R131). -/
  | dpXInd (o1 : Byte)
  /-- `(dp),Y` (R132). -/
  | dpIndY (o1 : Byte)
  /-- `[dp]` (R133). -/
  | dpIndLong (o1 : Byte)
  /-- `[dp],Y` (R134). -/
  | dpIndLongY (o1 : Byte)
  /-- `addr` (R136). -/
  | abs (a : Word)
  /-- `addr,X` and `addr,Y` (R137, R138). -/
  | absIdx (r : IdxReg) (a : Word)
  /-- `long` (R139). -/
  | long (l : Addr)
  /-- `long,X` (R140). -/
  | longX (l : Addr)
  /-- `sr,S` (R141). -/
  | sr (o1 : Byte)
  /-- `(sr,S),Y` (R142). -/
  | srIndY (o1 : Byte)
  deriving DecidableEq, Repr

/-- What a mode yields (R120): the effective address, and the successor for a second byte of data. -/
structure Ea where
  addr : Addr
  wrap : Wrap
  deriving DecidableEq, Repr

/-- An operand byte as an offset: never sign-extended (30_encoding.md R93). -/
def offsetOf (o1 : Byte) : Word := wordOf o1 0

/-- Is the direct page a page that wraps (R121)? On the 8-bit variants, and in emulation mode when `D[7:0] = 0`. -/
def State.pageWraps (s : State) : Bool := !s.is816 || (s.e && lowByte s.d == 0)

/-- `DPaddr(k)` (R121). -/
def State.dpAddr (s : State) (k : Word) : Addr :=
  if s.pageWraps then addrOf 0 (wordOf (lowByte k) (highByte s.dReg)) else addrOf 0 (s.dReg + k)

/-- The successor that `DPnext` takes (R121). -/
def State.dpNext (s : State) : Wrap := if s.pageWraps then .page else .bank

/-- `00 : (D + o1)`, with no page wrap (R133, R135). -/
def State.dpLongAddr (s : State) (o1 : Byte) : Addr := addrOf 0 (s.dReg + offsetOf o1)

/-- `00 : (S + o1)` (R141). -/
def State.srAddr (s : State) (o1 : Byte) : Addr := addrOf 0 (s.sp + offsetOf o1)

/-- `DBR : a`. -/
def State.dataAddr (s : State) (a : Word) : Addr := addrOf s.dataBank a

/-- Add an index to an address: 24 bits wide on V65816, 16 bits on the 8-bit variants (R132, R137). -/
def State.addIndex (s : State) (a : Addr) (i : Word) : Addr :=
  if s.is816 then a + addrOf 0 i else addrOf a.bank (a.offset + i)

/-- `EA` and `wrap` of a mode (R125 to R142). -/
def effAddr (m : Mode) (s : State) : Access Ea :=
  match m with
  | .dp o1 => .ok ⟨s.dpAddr (offsetOf o1), .bank⟩ s
  | .dpIdx r o1 => .ok ⟨s.dpAddr (offsetOf o1 + s.idx r), .bank⟩ s
  | .dpInd o1 =>
    (read16 (s.dpAddr (offsetOf o1)) s.dpNext s).bind fun ptr s1 => .ok ⟨s.dataAddr ptr, .lin⟩ s1
  | .dpXInd o1 =>
    (read16 (s.dpAddr (offsetOf o1 + s.x)) s.dpNext s).bind fun ptr s1 => .ok ⟨s.dataAddr ptr, .lin⟩ s1
  | .dpIndY o1 =>
    (read16 (s.dpAddr (offsetOf o1)) s.dpNext s).bind fun ptr s1 =>
      .ok ⟨s.addIndex (s.dataAddr ptr) s.y, .lin⟩ s1
  | .dpIndLong o1 =>
    (read24 (s.dpLongAddr o1) .bank s).bind fun ptr s1 => .ok ⟨ptr, .lin⟩ s1
  | .dpIndLongY o1 =>
    (read24 (s.dpLongAddr o1) .bank s).bind fun ptr s1 => .ok ⟨s.addIndex ptr s.y, .lin⟩ s1
  | .abs a => .ok ⟨s.dataAddr a, .lin⟩ s
  | .absIdx r a => .ok ⟨s.addIndex (s.dataAddr a) (s.idx r), .lin⟩ s
  | .long l => .ok ⟨l, .lin⟩ s
  | .longX l => .ok ⟨s.addIndex l s.x, .lin⟩ s
  | .sr o1 => .ok ⟨s.srAddr o1, .bank⟩ s
  | .srIndY o1 =>
    (read16 (s.srAddr o1) .bank s).bind fun ptr s1 => .ok ⟨s.addIndex (s.dataAddr ptr) s.y, .lin⟩ s1

/-- The length in bytes of an instruction with this mode (30_encoding.md R91). -/
def Mode.length : Mode → Nat
  | .dp _ => 2
  | .dpIdx _ _ => 2
  | .dpInd _ => 2
  | .dpXInd _ => 2
  | .dpIndY _ => 2
  | .dpIndLong _ => 2
  | .dpIndLongY _ => 2
  | .abs _ => 3
  | .absIdx _ _ => 3
  | .long _ => 4
  | .longX _ => 4
  | .sr _ => 2
  | .srIndY _ => 2

/-- The source operand of an instruction that reads one (41_arithmetic.md R160). -/
inductive Source where
  /-- Immediate (R124). -/
  | imm (k : Word)
  | mem (m : Mode)
  deriving DecidableEq, Repr

/-- `Operand(w)` (41_arithmetic.md R160). -/
def operand (src : Source) (w : Width) (s : State) : Access Word :=
  match src with
  | .imm k => .ok (trunc w k) s
  | .mem m => (effAddr m s).bind fun ea s1 => load w ea.addr ea.wrap s1

/-- The length in bytes of an instruction with this source at width `w` (30_encoding.md R92). -/
def Source.length (w : Width) : Source → Nat
  | .imm _ => 1 + w.bytes
  | .mem m => m.length

/-- The operand of a read-modify-write instruction (R123, 20_memory.md R69). -/
inductive Place where
  | acc
  | mem (m : Mode)
  deriving DecidableEq, Repr

/-- The length in bytes of an instruction with this operand. -/
def Place.length : Place → Nat
  | .acc => 1
  | .mem m => m.length

/-! ## The shapes of the data instructions -/

/-- An instruction that reads one operand of width `w` and then changes registers and flags. -/
def withOperand (src : Source) (w : Width) (effect : Word → State → State) (s : State) : Result :=
  (operand src w s).andThen fun m s1 => .next ((effect m s1).advance (src.length w))

/-- A store of `v` at width `w` (44_registers.md R253 to R256). -/
def storeTo (m : Mode) (w : Width) (v : Word) (s : State) : Result :=
  (effAddr m s).andThen fun ea s1 =>
  (store w ea.addr ea.wrap v s1).andThen fun _ s2 =>
  .next (s2.advance m.length)

/-- A read-modify-write instruction of width `w` (41_arithmetic.md R160, 20_memory.md R69): one read of the operand, one
write of the result to the same place, and the flags from the operand read. -/
def modify (pl : Place) (w : Width) (result : Word → Word) (flags : Word → State → State) (s : State) : Result :=
  match pl with
  | .acc => .next (((flags (s.accRead w) s).accWrite w (result (s.accRead w))).advance 1)
  | .mem m =>
    (effAddr m s).andThen fun ea s1 =>
    (load w ea.addr ea.wrap s1).andThen fun v s2 =>
    (store w ea.addr ea.wrap (result v) s2).andThen fun _ s3 =>
    .next ((flags v s3).advance m.length)

end Sys2Proof.Machine
end

