-- ==== Sys2Proof/Machine/Arithmetic.lean ====
section
/-! DEFINITION. Arithmetic instructions: ADC, SBC, DEC, INC, DEX, DEY, INX, INY (41_arithmetic.md). -/

namespace Sys2Proof.Machine

/-- `any(w)` as data of width `w`. -/
def State.drawData (s : State) : Width → Word
  | .w8 => wordOf (s.draw 8) 0
  | .w16 => s.draw 16

/-- The end of a decimal ADC or SBC of valid BCD operands (R163, R171): the result and the carry as computed, v a free
value, n and z from the result but on V6502 free values. -/
def State.decimalResult (s : State) (w : Width) (r : Word) (carry : Bool) : State :=
  let t := ((s.accWrite w r).setFlag .c carry).drawFlag .v
  if s.cfg.variant = .v6502 then (t.drawFlag .n).drawFlag .z else t.setNZ w r

/-- The end of a decimal ADC or SBC of operands that are not valid BCD (R163, R171): the accumulator and n, v, z, c are
free values. -/
def State.decimalInvalid (s : State) (w : Width) : State :=
  ((((s.accWrite w (s.drawData w)).drawn.drawFlag .n).drawFlag .v).drawFlag .z).drawFlag .c

/-- ADC of the operand `m` (R162, R163). -/
def State.adc (s : State) (w : Width) (m : Word) : State :=
  let a := s.accRead w
  let c := s.flag .c
  if s.flag .d then
    if validBcd w a && validBcd w m then s.decimalResult w (bcdAddResult w a m c) (bcdAddCarry w a m c)
    else s.decimalInvalid w
  else
    (((s.setFlag .c (addCarry w a m c)).setFlag .v (addOverflow w a m c)).accWrite w (addResult w a m c)).setNZ w
      (addResult w a m c)

/-- SBC of the operand `m` (R170, R171). -/
def State.sbc (s : State) (w : Width) (m : Word) : State :=
  let a := s.accRead w
  let c := s.flag .c
  if s.flag .d then
    if validBcd w a && validBcd w m then s.decimalResult w (bcdSubResult w a m c) (bcdSubCarry w a m c)
    else s.decimalInvalid w
  else
    (((s.setFlag .c (subCarry a m c)).setFlag .v (subOverflow w a m c)).accWrite w (subResult w a m c)).setNZ w
      (subResult w a m c)

/-- ADC (R162, R163). -/
def opAdc (src : Source) (s : State) : Result := withOperand src s.wm (fun m t => t.adc s.wm m) s

/-- SBC (R170, R171). -/
def opSbc (src : Source) (s : State) : Result := withOperand src s.wm (fun m t => t.sbc s.wm m) s

/-- DEC (R164): always binary; c and v are not touched. -/
def opDec (pl : Place) (s : State) : Result :=
  modify pl s.wm (fun v => trunc s.wm (v - 1)) (fun v t => t.setNZ s.wm (trunc s.wm (v - 1))) s

/-- INC (R167): always binary; c and v are not touched. -/
def opInc (pl : Place) (s : State) : Result :=
  modify pl s.wm (fun v => trunc s.wm (v + 1)) (fun v t => t.setNZ s.wm (trunc s.wm (v + 1))) s

/-- DEX and DEY (R165, R166), at the width of the index registers. -/
def opDecIdx (r : IdxReg) (s : State) : Result :=
  .next (((s.idxWrite r s.wx (s.idx r - 1)).setNZ s.wx (s.idx r - 1)).advance 1)

/-- INX and INY (R168, R169), at the width of the index registers. -/
def opIncIdx (r : IdxReg) (s : State) : Result :=
  .next (((s.idxWrite r s.wx (s.idx r + 1)).setNZ s.wx (s.idx r + 1)).advance 1)

/-- `ADC (dp,X)`, 0x61 (R162, R163; mode R131). -/
def execAdcDpXInd (o1 : Byte) (s : State) : Result := opAdc (.mem (.dpXInd o1)) s

/-- `ADC sr,S`, 0x63 (R162, R163; mode R141). -/
def execAdcSr (o1 : Byte) (s : State) : Result := opAdc (.mem (.sr o1)) s

/-- `ADC dp`, 0x65 (R162, R163; mode R125). -/
def execAdcDp (o1 : Byte) (s : State) : Result := opAdc (.mem (.dp o1)) s

/-- `ADC [dp]`, 0x67 (R162, R163; mode R133). -/
def execAdcDpIndLong (o1 : Byte) (s : State) : Result := opAdc (.mem (.dpIndLong o1)) s

/-- `ADC #const`, 0x69 (R162, R163; mode R124). -/
def execAdcImm (k : Word) (s : State) : Result := opAdc (.imm k) s

/-- `ADC addr`, 0x6D (R162, R163; mode R136). -/
def execAdcAbs (a : Word) (s : State) : Result := opAdc (.mem (.abs a)) s

/-- `ADC long`, 0x6F (R162, R163; mode R139). -/
def execAdcLong (l : Addr) (s : State) : Result := opAdc (.mem (.long l)) s

/-- `ADC (dp),Y`, 0x71 (R162, R163; mode R132). -/
def execAdcDpIndY (o1 : Byte) (s : State) : Result := opAdc (.mem (.dpIndY o1)) s

/-- `ADC (dp)`, 0x72 (R162, R163; mode R130). -/
def execAdcDpInd (o1 : Byte) (s : State) : Result := opAdc (.mem (.dpInd o1)) s

/-- `ADC (sr,S),Y`, 0x73 (R162, R163; mode R142). -/
def execAdcSrIndY (o1 : Byte) (s : State) : Result := opAdc (.mem (.srIndY o1)) s

/-- `ADC dp,X`, 0x75 (R162, R163; mode R126). -/
def execAdcDpX (o1 : Byte) (s : State) : Result := opAdc (.mem (.dpIdx .x o1)) s

/-- `ADC [dp],Y`, 0x77 (R162, R163; mode R134). -/
def execAdcDpIndLongY (o1 : Byte) (s : State) : Result := opAdc (.mem (.dpIndLongY o1)) s

/-- `ADC addr,Y`, 0x79 (R162, R163; mode R138). -/
def execAdcAbsY (a : Word) (s : State) : Result := opAdc (.mem (.absIdx .y a)) s

/-- `ADC addr,X`, 0x7D (R162, R163; mode R137). -/
def execAdcAbsX (a : Word) (s : State) : Result := opAdc (.mem (.absIdx .x a)) s

/-- `ADC long,X`, 0x7F (R162, R163; mode R140). -/
def execAdcLongX (l : Addr) (s : State) : Result := opAdc (.mem (.longX l)) s

/-- `SBC (dp,X)`, 0xE1 (R170, R171; mode R131). -/
def execSbcDpXInd (o1 : Byte) (s : State) : Result := opSbc (.mem (.dpXInd o1)) s

/-- `SBC sr,S`, 0xE3 (R170, R171; mode R141). -/
def execSbcSr (o1 : Byte) (s : State) : Result := opSbc (.mem (.sr o1)) s

/-- `SBC dp`, 0xE5 (R170, R171; mode R125). -/
def execSbcDp (o1 : Byte) (s : State) : Result := opSbc (.mem (.dp o1)) s

/-- `SBC [dp]`, 0xE7 (R170, R171; mode R133). -/
def execSbcDpIndLong (o1 : Byte) (s : State) : Result := opSbc (.mem (.dpIndLong o1)) s

/-- `SBC #const`, 0xE9 (R170, R171; mode R124). -/
def execSbcImm (k : Word) (s : State) : Result := opSbc (.imm k) s

/-- `SBC addr`, 0xED (R170, R171; mode R136). -/
def execSbcAbs (a : Word) (s : State) : Result := opSbc (.mem (.abs a)) s

/-- `SBC long`, 0xEF (R170, R171; mode R139). -/
def execSbcLong (l : Addr) (s : State) : Result := opSbc (.mem (.long l)) s

/-- `SBC (dp),Y`, 0xF1 (R170, R171; mode R132). -/
def execSbcDpIndY (o1 : Byte) (s : State) : Result := opSbc (.mem (.dpIndY o1)) s

/-- `SBC (dp)`, 0xF2 (R170, R171; mode R130). -/
def execSbcDpInd (o1 : Byte) (s : State) : Result := opSbc (.mem (.dpInd o1)) s

/-- `SBC (sr,S),Y`, 0xF3 (R170, R171; mode R142). -/
def execSbcSrIndY (o1 : Byte) (s : State) : Result := opSbc (.mem (.srIndY o1)) s

/-- `SBC dp,X`, 0xF5 (R170, R171; mode R126). -/
def execSbcDpX (o1 : Byte) (s : State) : Result := opSbc (.mem (.dpIdx .x o1)) s

/-- `SBC [dp],Y`, 0xF7 (R170, R171; mode R134). -/
def execSbcDpIndLongY (o1 : Byte) (s : State) : Result := opSbc (.mem (.dpIndLongY o1)) s

/-- `SBC addr,Y`, 0xF9 (R170, R171; mode R138). -/
def execSbcAbsY (a : Word) (s : State) : Result := opSbc (.mem (.absIdx .y a)) s

/-- `SBC addr,X`, 0xFD (R170, R171; mode R137). -/
def execSbcAbsX (a : Word) (s : State) : Result := opSbc (.mem (.absIdx .x a)) s

/-- `SBC long,X`, 0xFF (R170, R171; mode R140). -/
def execSbcLongX (l : Addr) (s : State) : Result := opSbc (.mem (.longX l)) s

/-- `DEC A`, 0x3A (R164; mode R123). -/
def execDecA (s : State) : Result := opDec .acc s

/-- `DEC dp`, 0xC6 (R164; mode R125). -/
def execDecDp (o1 : Byte) (s : State) : Result := opDec (.mem (.dp o1)) s

/-- `DEC addr`, 0xCE (R164; mode R136). -/
def execDecAbs (a : Word) (s : State) : Result := opDec (.mem (.abs a)) s

/-- `DEC dp,X`, 0xD6 (R164; mode R126). -/
def execDecDpX (o1 : Byte) (s : State) : Result := opDec (.mem (.dpIdx .x o1)) s

/-- `DEC addr,X`, 0xDE (R164; mode R137). -/
def execDecAbsX (a : Word) (s : State) : Result := opDec (.mem (.absIdx .x a)) s

/-- `INC A`, 0x1A (R167; mode R123). -/
def execIncA (s : State) : Result := opInc .acc s

/-- `INC dp`, 0xE6 (R167; mode R125). -/
def execIncDp (o1 : Byte) (s : State) : Result := opInc (.mem (.dp o1)) s

/-- `INC addr`, 0xEE (R167; mode R136). -/
def execIncAbs (a : Word) (s : State) : Result := opInc (.mem (.abs a)) s

/-- `INC dp,X`, 0xF6 (R167; mode R126). -/
def execIncDpX (o1 : Byte) (s : State) : Result := opInc (.mem (.dpIdx .x o1)) s

/-- `INC addr,X`, 0xFE (R167; mode R137). -/
def execIncAbsX (a : Word) (s : State) : Result := opInc (.mem (.absIdx .x a)) s

/-- `DEX`, 0xCA (R165). -/
def execDex (s : State) : Result := opDecIdx .x s

/-- `DEY`, 0x88 (R166). -/
def execDey (s : State) : Result := opDecIdx .y s

/-- `INX`, 0xE8 (R168). -/
def execInx (s : State) : Result := opIncIdx .x s

/-- `INY`, 0xC8 (R169). -/
def execIny (s : State) : Result := opIncIdx .y s

end Sys2Proof.Machine
end

