-- ==== Sys2Proof/Machine/Binary.lean ====
section
/-! DEFINITION. Binary operations: AND, BIT, EOR, ORA, the shifts and rotates, TRB, TSB (42_binary.md). -/

namespace Sys2Proof.Machine

/-- The logical instructions: the result goes to the accumulator, n and z from it (R180). -/
def logical (f : Word → Word → Word) (src : Source) (s : State) : Result :=
  withOperand src s.wm (fun m t => (t.accWrite s.wm (f (t.accRead s.wm) m)).setNZ s.wm (f (t.accRead s.wm) m)) s

/-- AND (R181). -/
def opAnd (src : Source) (s : State) : Result := logical (· &&& ·) src s

/-- EOR (R183). -/
def opEor (src : Source) (s : State) : Result := logical (· ^^^ ·) src s

/-- ORA (R184). -/
def opOra (src : Source) (s : State) : Result := logical (· ||| ·) src s

/-- BIT with a memory operand (R182). -/
def opBit (md : Mode) (s : State) : Result :=
  withOperand (.mem md) s.wm (fun m t => t.bitFlags s.wm (t.accRead s.wm) m) s

/-- BIT with an immediate operand: only z is written (R182). -/
def opBitImm (k : Word) (s : State) : Result :=
  withOperand (.imm k) s.wm (fun m t => t.testFlag (t.accRead s.wm) m) s

/-- ASL (R186). -/
def opAsl (pl : Place) (s : State) : Result :=
  modify pl s.wm (aslResult s.wm) (fun v t => t.shiftFlags s.wm (aslResult s.wm v) (msb s.wm v)) s

/-- LSR (R187). -/
def opLsr (pl : Place) (s : State) : Result :=
  modify pl s.wm lsrResult (fun v t => t.shiftFlags s.wm (lsrResult v) (v.getLsbD 0)) s

/-- ROL (R188): the carry shifted in is the one before the instruction. -/
def opRol (pl : Place) (s : State) : Result :=
  modify pl s.wm (fun v => rolResult s.wm v (s.flag .c))
    (fun v t => t.shiftFlags s.wm (rolResult s.wm v (s.flag .c)) (msb s.wm v)) s

/-- ROR (R189): the carry shifted in is the one before the instruction. -/
def opRor (pl : Place) (s : State) : Result :=
  modify pl s.wm (fun v => rorResult s.wm v (s.flag .c))
    (fun v t => t.shiftFlags s.wm (rorResult s.wm v (s.flag .c)) (v.getLsbD 0)) s

/-- TRB (R190): z from the value read. -/
def opTrb (md : Mode) (s : State) : Result :=
  modify (.mem md) s.wm (fun m => m &&& ~~~(s.accRead s.wm)) (fun m t => t.testFlag (s.accRead s.wm) m) s

/-- TSB (R191): z from the value read. -/
def opTsb (md : Mode) (s : State) : Result :=
  modify (.mem md) s.wm (fun m => m ||| s.accRead s.wm) (fun m t => t.testFlag (s.accRead s.wm) m) s

/-- `AND (dp,X)`, 0x21 (R181; mode R131). -/
def execAndDpXInd (o1 : Byte) (s : State) : Result := opAnd (.mem (.dpXInd o1)) s

/-- `AND sr,S`, 0x23 (R181; mode R141). -/
def execAndSr (o1 : Byte) (s : State) : Result := opAnd (.mem (.sr o1)) s

/-- `AND dp`, 0x25 (R181; mode R125). -/
def execAndDp (o1 : Byte) (s : State) : Result := opAnd (.mem (.dp o1)) s

/-- `AND [dp]`, 0x27 (R181; mode R133). -/
def execAndDpIndLong (o1 : Byte) (s : State) : Result := opAnd (.mem (.dpIndLong o1)) s

/-- `AND #const`, 0x29 (R181; mode R124). -/
def execAndImm (k : Word) (s : State) : Result := opAnd (.imm k) s

/-- `AND addr`, 0x2D (R181; mode R136). -/
def execAndAbs (a : Word) (s : State) : Result := opAnd (.mem (.abs a)) s

/-- `AND long`, 0x2F (R181; mode R139). -/
def execAndLong (l : Addr) (s : State) : Result := opAnd (.mem (.long l)) s

/-- `AND (dp),Y`, 0x31 (R181; mode R132). -/
def execAndDpIndY (o1 : Byte) (s : State) : Result := opAnd (.mem (.dpIndY o1)) s

/-- `AND (dp)`, 0x32 (R181; mode R130). -/
def execAndDpInd (o1 : Byte) (s : State) : Result := opAnd (.mem (.dpInd o1)) s

/-- `AND (sr,S),Y`, 0x33 (R181; mode R142). -/
def execAndSrIndY (o1 : Byte) (s : State) : Result := opAnd (.mem (.srIndY o1)) s

/-- `AND dp,X`, 0x35 (R181; mode R126). -/
def execAndDpX (o1 : Byte) (s : State) : Result := opAnd (.mem (.dpIdx .x o1)) s

/-- `AND [dp],Y`, 0x37 (R181; mode R134). -/
def execAndDpIndLongY (o1 : Byte) (s : State) : Result := opAnd (.mem (.dpIndLongY o1)) s

/-- `AND addr,Y`, 0x39 (R181; mode R138). -/
def execAndAbsY (a : Word) (s : State) : Result := opAnd (.mem (.absIdx .y a)) s

/-- `AND addr,X`, 0x3D (R181; mode R137). -/
def execAndAbsX (a : Word) (s : State) : Result := opAnd (.mem (.absIdx .x a)) s

/-- `AND long,X`, 0x3F (R181; mode R140). -/
def execAndLongX (l : Addr) (s : State) : Result := opAnd (.mem (.longX l)) s

/-- `BIT dp`, 0x24 (R182; mode R125). -/
def execBitDp (o1 : Byte) (s : State) : Result := opBit (.dp o1) s

/-- `BIT addr`, 0x2C (R182; mode R136). -/
def execBitAbs (a : Word) (s : State) : Result := opBit (.abs a) s

/-- `BIT dp,X`, 0x34 (R182; mode R126). -/
def execBitDpX (o1 : Byte) (s : State) : Result := opBit (.dpIdx .x o1) s

/-- `BIT addr,X`, 0x3C (R182; mode R137). -/
def execBitAbsX (a : Word) (s : State) : Result := opBit (.absIdx .x a) s

/-- `BIT #const`, 0x89 (R182; mode R124). -/
def execBitImm (k : Word) (s : State) : Result := opBitImm k s

/-- `EOR (dp,X)`, 0x41 (R183; mode R131). -/
def execEorDpXInd (o1 : Byte) (s : State) : Result := opEor (.mem (.dpXInd o1)) s

/-- `EOR sr,S`, 0x43 (R183; mode R141). -/
def execEorSr (o1 : Byte) (s : State) : Result := opEor (.mem (.sr o1)) s

/-- `EOR dp`, 0x45 (R183; mode R125). -/
def execEorDp (o1 : Byte) (s : State) : Result := opEor (.mem (.dp o1)) s

/-- `EOR [dp]`, 0x47 (R183; mode R133). -/
def execEorDpIndLong (o1 : Byte) (s : State) : Result := opEor (.mem (.dpIndLong o1)) s

/-- `EOR #const`, 0x49 (R183; mode R124). -/
def execEorImm (k : Word) (s : State) : Result := opEor (.imm k) s

/-- `EOR addr`, 0x4D (R183; mode R136). -/
def execEorAbs (a : Word) (s : State) : Result := opEor (.mem (.abs a)) s

/-- `EOR long`, 0x4F (R183; mode R139). -/
def execEorLong (l : Addr) (s : State) : Result := opEor (.mem (.long l)) s

/-- `EOR (dp),Y`, 0x51 (R183; mode R132). -/
def execEorDpIndY (o1 : Byte) (s : State) : Result := opEor (.mem (.dpIndY o1)) s

/-- `EOR (dp)`, 0x52 (R183; mode R130). -/
def execEorDpInd (o1 : Byte) (s : State) : Result := opEor (.mem (.dpInd o1)) s

/-- `EOR (sr,S),Y`, 0x53 (R183; mode R142). -/
def execEorSrIndY (o1 : Byte) (s : State) : Result := opEor (.mem (.srIndY o1)) s

/-- `EOR dp,X`, 0x55 (R183; mode R126). -/
def execEorDpX (o1 : Byte) (s : State) : Result := opEor (.mem (.dpIdx .x o1)) s

/-- `EOR [dp],Y`, 0x57 (R183; mode R134). -/
def execEorDpIndLongY (o1 : Byte) (s : State) : Result := opEor (.mem (.dpIndLongY o1)) s

/-- `EOR addr,Y`, 0x59 (R183; mode R138). -/
def execEorAbsY (a : Word) (s : State) : Result := opEor (.mem (.absIdx .y a)) s

/-- `EOR addr,X`, 0x5D (R183; mode R137). -/
def execEorAbsX (a : Word) (s : State) : Result := opEor (.mem (.absIdx .x a)) s

/-- `EOR long,X`, 0x5F (R183; mode R140). -/
def execEorLongX (l : Addr) (s : State) : Result := opEor (.mem (.longX l)) s

/-- `ORA (dp,X)`, 0x01 (R184; mode R131). -/
def execOraDpXInd (o1 : Byte) (s : State) : Result := opOra (.mem (.dpXInd o1)) s

/-- `ORA sr,S`, 0x03 (R184; mode R141). -/
def execOraSr (o1 : Byte) (s : State) : Result := opOra (.mem (.sr o1)) s

/-- `ORA dp`, 0x05 (R184; mode R125). -/
def execOraDp (o1 : Byte) (s : State) : Result := opOra (.mem (.dp o1)) s

/-- `ORA [dp]`, 0x07 (R184; mode R133). -/
def execOraDpIndLong (o1 : Byte) (s : State) : Result := opOra (.mem (.dpIndLong o1)) s

/-- `ORA #const`, 0x09 (R184; mode R124). -/
def execOraImm (k : Word) (s : State) : Result := opOra (.imm k) s

/-- `ORA addr`, 0x0D (R184; mode R136). -/
def execOraAbs (a : Word) (s : State) : Result := opOra (.mem (.abs a)) s

/-- `ORA long`, 0x0F (R184; mode R139). -/
def execOraLong (l : Addr) (s : State) : Result := opOra (.mem (.long l)) s

/-- `ORA (dp),Y`, 0x11 (R184; mode R132). -/
def execOraDpIndY (o1 : Byte) (s : State) : Result := opOra (.mem (.dpIndY o1)) s

/-- `ORA (dp)`, 0x12 (R184; mode R130). -/
def execOraDpInd (o1 : Byte) (s : State) : Result := opOra (.mem (.dpInd o1)) s

/-- `ORA (sr,S),Y`, 0x13 (R184; mode R142). -/
def execOraSrIndY (o1 : Byte) (s : State) : Result := opOra (.mem (.srIndY o1)) s

/-- `ORA dp,X`, 0x15 (R184; mode R126). -/
def execOraDpX (o1 : Byte) (s : State) : Result := opOra (.mem (.dpIdx .x o1)) s

/-- `ORA [dp],Y`, 0x17 (R184; mode R134). -/
def execOraDpIndLongY (o1 : Byte) (s : State) : Result := opOra (.mem (.dpIndLongY o1)) s

/-- `ORA addr,Y`, 0x19 (R184; mode R138). -/
def execOraAbsY (a : Word) (s : State) : Result := opOra (.mem (.absIdx .y a)) s

/-- `ORA addr,X`, 0x1D (R184; mode R137). -/
def execOraAbsX (a : Word) (s : State) : Result := opOra (.mem (.absIdx .x a)) s

/-- `ORA long,X`, 0x1F (R184; mode R140). -/
def execOraLongX (l : Addr) (s : State) : Result := opOra (.mem (.longX l)) s

/-- `ASL dp`, 0x06 (R186; mode R125). -/
def execAslDp (o1 : Byte) (s : State) : Result := opAsl (.mem (.dp o1)) s

/-- `ASL A`, 0x0A (R186; mode R123). -/
def execAslA (s : State) : Result := opAsl .acc s

/-- `ASL addr`, 0x0E (R186; mode R136). -/
def execAslAbs (a : Word) (s : State) : Result := opAsl (.mem (.abs a)) s

/-- `ASL dp,X`, 0x16 (R186; mode R126). -/
def execAslDpX (o1 : Byte) (s : State) : Result := opAsl (.mem (.dpIdx .x o1)) s

/-- `ASL addr,X`, 0x1E (R186; mode R137). -/
def execAslAbsX (a : Word) (s : State) : Result := opAsl (.mem (.absIdx .x a)) s

/-- `LSR dp`, 0x46 (R187; mode R125). -/
def execLsrDp (o1 : Byte) (s : State) : Result := opLsr (.mem (.dp o1)) s

/-- `LSR A`, 0x4A (R187; mode R123). -/
def execLsrA (s : State) : Result := opLsr .acc s

/-- `LSR addr`, 0x4E (R187; mode R136). -/
def execLsrAbs (a : Word) (s : State) : Result := opLsr (.mem (.abs a)) s

/-- `LSR dp,X`, 0x56 (R187; mode R126). -/
def execLsrDpX (o1 : Byte) (s : State) : Result := opLsr (.mem (.dpIdx .x o1)) s

/-- `LSR addr,X`, 0x5E (R187; mode R137). -/
def execLsrAbsX (a : Word) (s : State) : Result := opLsr (.mem (.absIdx .x a)) s

/-- `ROL dp`, 0x26 (R188; mode R125). -/
def execRolDp (o1 : Byte) (s : State) : Result := opRol (.mem (.dp o1)) s

/-- `ROL A`, 0x2A (R188; mode R123). -/
def execRolA (s : State) : Result := opRol .acc s

/-- `ROL addr`, 0x2E (R188; mode R136). -/
def execRolAbs (a : Word) (s : State) : Result := opRol (.mem (.abs a)) s

/-- `ROL dp,X`, 0x36 (R188; mode R126). -/
def execRolDpX (o1 : Byte) (s : State) : Result := opRol (.mem (.dpIdx .x o1)) s

/-- `ROL addr,X`, 0x3E (R188; mode R137). -/
def execRolAbsX (a : Word) (s : State) : Result := opRol (.mem (.absIdx .x a)) s

/-- `ROR dp`, 0x66 (R189; mode R125). -/
def execRorDp (o1 : Byte) (s : State) : Result := opRor (.mem (.dp o1)) s

/-- `ROR A`, 0x6A (R189; mode R123). -/
def execRorA (s : State) : Result := opRor .acc s

/-- `ROR addr`, 0x6E (R189; mode R136). -/
def execRorAbs (a : Word) (s : State) : Result := opRor (.mem (.abs a)) s

/-- `ROR dp,X`, 0x76 (R189; mode R126). -/
def execRorDpX (o1 : Byte) (s : State) : Result := opRor (.mem (.dpIdx .x o1)) s

/-- `ROR addr,X`, 0x7E (R189; mode R137). -/
def execRorAbsX (a : Word) (s : State) : Result := opRor (.mem (.absIdx .x a)) s

/-- `TRB dp`, 0x14 (R190; mode R125). -/
def execTrbDp (o1 : Byte) (s : State) : Result := opTrb (.dp o1) s

/-- `TRB addr`, 0x1C (R190; mode R136). -/
def execTrbAbs (a : Word) (s : State) : Result := opTrb (.abs a) s

/-- `TSB dp`, 0x04 (R191; mode R125). -/
def execTsbDp (o1 : Byte) (s : State) : Result := opTsb (.dp o1) s

/-- `TSB addr`, 0x0C (R191; mode R136). -/
def execTsbAbs (a : Word) (s : State) : Result := opTsb (.abs a) s

end Sys2Proof.Machine
end

