-- ==== Sys2Proof/Machine/Interrupts.lean ====
section
/-! DEFINITION. Interrupt instructions: BRK, COP, RTI, WAI (46_interrupt_instructions.md). The signature byte of BRK and COP is not
looked at. -/

namespace Sys2Proof.Machine

/-- `BRK`, 0x00 (R310; mode R148). -/
def execBrk (_sig : Byte) (s : State) : Result := enter .brk (s.pc + 2) s

/-- `COP const`, 0x02 (R311; mode R148). -/
def execCop (_sig : Byte) (s : State) : Result := enter .cop (s.pc + 2) s

/-- `RTI`, 0x40 (R312). -/
def execRti (s : State) : Result := returnFromInterrupt s

/-- `WAI`, 0xCB (R313). -/
def execWai (s : State) : Result := .next (({ s with run := .waiting } : State).advance 1)

end Sys2Proof.Machine
end

