-- ==== Sys2Proof/Machine/Misc.lean ====
section
/-! DEFINITION. Miscellaneous instructions: MVN, MVP, XCE, NOP, WDM, STP (47_miscellaneous.md). -/

namespace Sys2Proof.Machine

/-- The source bank of a block move (R320). -/
def State.srcBank (s : State) (o1 o2 : Byte) : Byte :=
  match s.cfg.blockMoveOrder with
  | .srcFirst => o1
  | .dstFirst => o2

/-- The destination bank of a block move (R320). -/
def State.dstBank (s : State) (o1 o2 : Byte) : Byte :=
  match s.cfg.blockMoveOrder with
  | .srcFirst => o2
  | .dstFirst => o1

/-- What one step of a block move does to the registers, `delta` being 1 or -1: X and Y move, C counts down, DBR is the
destination bank, and PC leaves the instruction when C wraps (R320, R321). -/
def State.blockMoveRegs (s : State) (delta : Word) (dst : Byte) : State :=
  let t := ((s.idxWrite .x s.wx (s.x + delta)).idxWrite .y s.wx (s.y + delta))
  let t : State := { t with c := s.c - 1, dbr := dst }
  if s.c - 1 = 0xFFFF then t.advance 3 else t

/-- One step of MVN (`delta` 1) or MVP (`delta` -1): one byte (R320, R321). -/
def blockMove (delta : Word) (o1 o2 : Byte) (s : State) : Result :=
  (read8 (addrOf (s.srcBank o1 o2) s.x) s).andThen fun v s1 =>
  (write8 (addrOf (s.dstBank o1 o2) s.y) v s1).andThen fun _ s2 =>
  .next (s2.blockMoveRegs delta (s.dstBank o1 o2))

/-- XCE (R322): c and e exchanged; entering emulation mode forces m, x, the index high bytes and `S[15:8]`; leaving it
keeps m and x at 1. -/
def State.exchangeCE (s : State) : State :=
  let t := ({ s with e := s.flag .c } : State).setFlag .c s.e
  if t.e then
    let u := ((t.setFlag .m true).setFlag .x true).clearIdxHigh
    { u with sp := wordOf (lowByte s.sp) 0x01 }
  else if s.e then (t.setFlag .m true).setFlag .x true
  else t

/-- `MVN srcbk, dstbk`, 0x54 (R320; mode R148). -/
def execMvn (o1 : Byte) (o2 : Byte) (s : State) : Result := blockMove 1 o1 o2 s

/-- `MVP srcbk, dstbk`, 0x44 (R321; mode R148). -/
def execMvp (o1 : Byte) (o2 : Byte) (s : State) : Result := blockMove 0xFFFF o1 o2 s

/-- `XCE`, 0xFB (R322). -/
def execXce (s : State) : Result := .next (s.exchangeCE.advance 1)

/-- `NOP`, 0xEA (R325). -/
def execNop (s : State) : Result := .next (s.advance 1)

/-- `WDM`, 0x42 (R326). -/
def execWdm (_sig : Byte) (s : State) : Result := .next (s.advance 2)

/-- `STP`, 0xDB (R327). -/
def execStp (s : State) : Result := .next (({ s with run := .stopped } : State).advance 1)

end Sys2Proof.Machine
end

