-- ==== Sys2Proof/Machine/ProgramFlow.lean ====
section
/-! DEFINITION. Program flow: flag instructions, compares, branches, jumps, subroutines (43_program_flow.md). -/

namespace Sys2Proof.Machine

/-- The seven one-byte flag instructions: one bit of P (R200). -/
def opFlag (f : Flag) (b : Bool) (s : State) : Result := .next ((s.setFlag f b).advance 1)

/-- REP (R208): in emulation mode bits 5 and 4 are not affected. -/
def opRep (k : Byte) (s : State) : Result :=
  .next (({ s with p := s.p &&& ~~~(if s.emulation then k &&& 0xCF else k) } : State).advance 2)

/-- SEP (R209): in native mode setting x clears the high bytes of X and Y. -/
def opSep (k : Byte) (s : State) : Result :=
  if s.emulation then .next (({ s with p := s.p ||| (k &&& 0xCF) } : State).advance 2)
  else if getFlag k .x then .next ((({ s with p := s.p ||| k } : State).clearIdxHigh).advance 2)
  else .next (({ s with p := s.p ||| k } : State).advance 2)

/-- CMP (R210). -/
def opCmp (src : Source) (s : State) : Result :=
  withOperand src s.wm (fun m t => t.compareFlags s.wm (t.accRead s.wm) m) s

/-- CPX and CPY (R211, R212), at the width of the index registers. -/
def opCmpIdx (r : IdxReg) (src : Source) (s : State) : Result :=
  withOperand src s.wx (fun m t => t.compareFlags s.wx (trunc s.wx (t.idx r)) m) s

/-- The short branches (R213, 40_addressing_modes.md R146). -/
def branch (taken : Bool) (rel : Byte) (s : State) : Result :=
  if taken then .next { s with pc := s.pc + 2 + rel.signExtend 16 } else .next (s.advance 2)

/-- `(PC + 3 + rel16) mod 2^16` (40_addressing_modes.md R147), the target of BRL and the value PER pushes. -/
def State.relLong (s : State) (rel : Word) : Word := s.pc + 3 + rel

/-- The successor of the pointer of `JMP (addr)`: on V6502 it stays in the page (R226, 40_addressing_modes.md R143). -/
def State.jmpIndWrap (s : State) : Wrap := if s.cfg.variant = .v6502 then .page else .bank

/-- The pointer of `(addr,X)` (40_addressing_modes.md R144), with PBR and X of `s`, read in the state `t`. -/
def State.indexedPointer (s : State) (a : Word) (t : State) : Access Word :=
  read16 (addrOf s.progBank (a + s.x)) .bank t

/-- `CLC`, 0x18 (R201). -/
def execClc (s : State) : Result := opFlag .c false s

/-- `CLD`, 0xD8 (R202). -/
def execCld (s : State) : Result := opFlag .d false s

/-- `CLI`, 0x58 (R203). -/
def execCli (s : State) : Result := opFlag .i false s

/-- `CLV`, 0xB8 (R204). -/
def execClv (s : State) : Result := opFlag .v false s

/-- `SEC`, 0x38 (R205). -/
def execSec (s : State) : Result := opFlag .c true s

/-- `SED`, 0xF8 (R206). -/
def execSed (s : State) : Result := opFlag .d true s

/-- `SEI`, 0x78 (R207). -/
def execSei (s : State) : Result := opFlag .i true s

/-- `REP #const`, 0xC2 (R208; mode R124). -/
def execRep (k : Byte) (s : State) : Result := opRep k s

/-- `SEP #const`, 0xE2 (R209; mode R124). -/
def execSep (k : Byte) (s : State) : Result := opSep k s

/-- `CMP (dp,X)`, 0xC1 (R210; mode R131). -/
def execCmpDpXInd (o1 : Byte) (s : State) : Result := opCmp (.mem (.dpXInd o1)) s

/-- `CMP sr,S`, 0xC3 (R210; mode R141). -/
def execCmpSr (o1 : Byte) (s : State) : Result := opCmp (.mem (.sr o1)) s

/-- `CMP dp`, 0xC5 (R210; mode R125). -/
def execCmpDp (o1 : Byte) (s : State) : Result := opCmp (.mem (.dp o1)) s

/-- `CMP [dp]`, 0xC7 (R210; mode R133). -/
def execCmpDpIndLong (o1 : Byte) (s : State) : Result := opCmp (.mem (.dpIndLong o1)) s

/-- `CMP #const`, 0xC9 (R210; mode R124). -/
def execCmpImm (k : Word) (s : State) : Result := opCmp (.imm k) s

/-- `CMP addr`, 0xCD (R210; mode R136). -/
def execCmpAbs (a : Word) (s : State) : Result := opCmp (.mem (.abs a)) s

/-- `CMP long`, 0xCF (R210; mode R139). -/
def execCmpLong (l : Addr) (s : State) : Result := opCmp (.mem (.long l)) s

/-- `CMP (dp),Y`, 0xD1 (R210; mode R132). -/
def execCmpDpIndY (o1 : Byte) (s : State) : Result := opCmp (.mem (.dpIndY o1)) s

/-- `CMP (dp)`, 0xD2 (R210; mode R130). -/
def execCmpDpInd (o1 : Byte) (s : State) : Result := opCmp (.mem (.dpInd o1)) s

/-- `CMP (sr,S),Y`, 0xD3 (R210; mode R142). -/
def execCmpSrIndY (o1 : Byte) (s : State) : Result := opCmp (.mem (.srIndY o1)) s

/-- `CMP dp,X`, 0xD5 (R210; mode R126). -/
def execCmpDpX (o1 : Byte) (s : State) : Result := opCmp (.mem (.dpIdx .x o1)) s

/-- `CMP [dp],Y`, 0xD7 (R210; mode R134). -/
def execCmpDpIndLongY (o1 : Byte) (s : State) : Result := opCmp (.mem (.dpIndLongY o1)) s

/-- `CMP addr,Y`, 0xD9 (R210; mode R138). -/
def execCmpAbsY (a : Word) (s : State) : Result := opCmp (.mem (.absIdx .y a)) s

/-- `CMP addr,X`, 0xDD (R210; mode R137). -/
def execCmpAbsX (a : Word) (s : State) : Result := opCmp (.mem (.absIdx .x a)) s

/-- `CMP long,X`, 0xDF (R210; mode R140). -/
def execCmpLongX (l : Addr) (s : State) : Result := opCmp (.mem (.longX l)) s

/-- `CPX #const`, 0xE0 (R211; mode R124). -/
def execCpxImm (k : Word) (s : State) : Result := opCmpIdx .x (.imm k) s

/-- `CPX dp`, 0xE4 (R211; mode R125). -/
def execCpxDp (o1 : Byte) (s : State) : Result := opCmpIdx .x (.mem (.dp o1)) s

/-- `CPX addr`, 0xEC (R211; mode R136). -/
def execCpxAbs (a : Word) (s : State) : Result := opCmpIdx .x (.mem (.abs a)) s

/-- `CPY #const`, 0xC0 (R212; mode R124). -/
def execCpyImm (k : Word) (s : State) : Result := opCmpIdx .y (.imm k) s

/-- `CPY dp`, 0xC4 (R212; mode R125). -/
def execCpyDp (o1 : Byte) (s : State) : Result := opCmpIdx .y (.mem (.dp o1)) s

/-- `CPY addr`, 0xCC (R212; mode R136). -/
def execCpyAbs (a : Word) (s : State) : Result := opCmpIdx .y (.mem (.abs a)) s

/-- `BCC nearlabel`, 0x90 (R214; mode R146). -/
def execBcc (rel : Byte) (s : State) : Result := branch (!s.flag .c) rel s

/-- `BCS nearlabel`, 0xB0 (R215; mode R146). -/
def execBcs (rel : Byte) (s : State) : Result := branch (s.flag .c) rel s

/-- `BEQ nearlabel`, 0xF0 (R216; mode R146). -/
def execBeq (rel : Byte) (s : State) : Result := branch (s.flag .z) rel s

/-- `BNE nearlabel`, 0xD0 (R217; mode R146). -/
def execBne (rel : Byte) (s : State) : Result := branch (!s.flag .z) rel s

/-- `BMI nearlabel`, 0x30 (R218; mode R146). -/
def execBmi (rel : Byte) (s : State) : Result := branch (s.flag .n) rel s

/-- `BPL nearlabel`, 0x10 (R219; mode R146). -/
def execBpl (rel : Byte) (s : State) : Result := branch (!s.flag .n) rel s

/-- `BVC nearlabel`, 0x50 (R220; mode R146). -/
def execBvc (rel : Byte) (s : State) : Result := branch (!s.flag .v) rel s

/-- `BVS nearlabel`, 0x70 (R221; mode R146). -/
def execBvs (rel : Byte) (s : State) : Result := branch (s.flag .v) rel s

/-- `BRA nearlabel`, 0x80 (R222; mode R146). -/
def execBra (rel : Byte) (s : State) : Result := branch true rel s

/-- `BRL label`, 0x82 (R223; mode R147). -/
def execBrl (rel : Word) (s : State) : Result := .next { s with pc := s.relLong rel }

/-- `JMP addr`, 0x4C (R224; mode R136). -/
def execJmpAbs (a : Word) (s : State) : Result := .next { s with pc := a }

/-- `JMP long`, 0x5C (R225; mode R139). -/
def execJmpLong (l : Addr) (s : State) : Result :=
  .next { s with pc := l.offset, pbr := l.bank }

/-- `JMP (addr)`, 0x6C (R226; mode R143). -/
def execJmpAbsInd (a : Word) (s : State) : Result :=
  (read16 (addrOf 0 a) s.jmpIndWrap s).andThen fun target s1 =>
  .next { s1 with pc := target }

/-- `JMP (addr,X)`, 0x7C (R227; mode R144). -/
def execJmpAbsXInd (a : Word) (s : State) : Result :=
  (s.indexedPointer a s).andThen fun target s1 => .next { s1 with pc := target }

/-- `JMP [addr]`, 0xDC (R228; mode R145). -/
def execJmpAbsIndLong (a : Word) (s : State) : Result :=
  (read24 (addrOf 0 a) .bank s).andThen fun target s1 =>
  .next { s1 with pc := target.offset, pbr := target.bank }

/-- `JSR addr`, 0x20 (R229; mode R136). -/
def execJsrAbs (a : Word) (s : State) : Result :=
  (push16 (s.pc + 2) s).andThen fun _ s1 => .next { s1 with pc := a }

/-- `JSR (addr,X)`, 0xFC (R230; mode R144). -/
def execJsrAbsXInd (a : Word) (s : State) : Result :=
  (push16 (s.pc + 2) s).andThen fun _ s1 =>
  (s.indexedPointer a s1).andThen fun target s2 => .next { s2 with pc := target }

/-- `JSL long`, 0x22 (R231; mode R139). -/
def execJsl (l : Addr) (s : State) : Result :=
  (push8 s.pbr s).andThen fun _ s1 =>
  (push16 (s.pc + 3) s1).andThen fun _ s2 => .next { s2 with pc := l.offset, pbr := l.bank }

/-- `RTS`, 0x60 (R232). -/
def execRts (s : State) : Result :=
  (pull16 s).andThen fun v s1 => .next { s1 with pc := v + 1 }

/-- `RTL`, 0x6B (R233). -/
def execRtl (s : State) : Result :=
  (pull16 s).andThen fun v s1 =>
  (pull8 s1).andThen fun bank s2 => .next { s2 with pc := v + 1, pbr := bank }

end Sys2Proof.Machine
end

