-- ==== Sys2Proof/Machine/Registers.lean ====
section
/-! DEFINITION. Register operations: loads, stores, transfers, XBA (44_registers.md). -/

namespace Sys2Proof.Machine

/-- LDA (R250). -/
def opLda (src : Source) (s : State) : Result :=
  withOperand src s.wm (fun m t => (t.accWrite s.wm m).setNZ s.wm m) s

/-- LDX and LDY (R251, R252), at the width of the index registers. -/
def opLdIdx (r : IdxReg) (src : Source) (s : State) : Result :=
  withOperand src s.wx (fun m t => (t.idxWrite r s.wx m).setNZ s.wx m) s

/-- A transfer to an index register, flags at `WX` (R257). -/
def toIdx (r : IdxReg) (v : Word) (s : State) : Result :=
  .next (((s.idxWrite r s.wx v).setNZ s.wx v).advance 1)

/-- A transfer to the accumulator, flags at `WM` (R257). -/
def toAcc (v : Word) (s : State) : Result :=
  .next (((s.accWrite s.wm v).setNZ s.wm v).advance 1)

/-- A transfer to the stack pointer, no flags: in emulation mode and on the 8-bit variants the high byte stays 0x01
(R261, R266). -/
def toS (v : Word) (s : State) : Result :=
  .next (({ s with sp := if s.emulation then wordOf (lowByte v) 0x01 else v } : State).advance 1)

/-- `LDA (dp,X)`, 0xA1 (R250; mode R131). -/
def execLdaDpXInd (o1 : Byte) (s : State) : Result := opLda (.mem (.dpXInd o1)) s

/-- `LDA sr,S`, 0xA3 (R250; mode R141). -/
def execLdaSr (o1 : Byte) (s : State) : Result := opLda (.mem (.sr o1)) s

/-- `LDA dp`, 0xA5 (R250; mode R125). -/
def execLdaDp (o1 : Byte) (s : State) : Result := opLda (.mem (.dp o1)) s

/-- `LDA [dp]`, 0xA7 (R250; mode R133). -/
def execLdaDpIndLong (o1 : Byte) (s : State) : Result := opLda (.mem (.dpIndLong o1)) s

/-- `LDA #const`, 0xA9 (R250; mode R124). -/
def execLdaImm (k : Word) (s : State) : Result := opLda (.imm k) s

/-- `LDA addr`, 0xAD (R250; mode R136). -/
def execLdaAbs (a : Word) (s : State) : Result := opLda (.mem (.abs a)) s

/-- `LDA long`, 0xAF (R250; mode R139). -/
def execLdaLong (l : Addr) (s : State) : Result := opLda (.mem (.long l)) s

/-- `LDA (dp),Y`, 0xB1 (R250; mode R132). -/
def execLdaDpIndY (o1 : Byte) (s : State) : Result := opLda (.mem (.dpIndY o1)) s

/-- `LDA (dp)`, 0xB2 (R250; mode R130). -/
def execLdaDpInd (o1 : Byte) (s : State) : Result := opLda (.mem (.dpInd o1)) s

/-- `LDA (sr,S),Y`, 0xB3 (R250; mode R142). -/
def execLdaSrIndY (o1 : Byte) (s : State) : Result := opLda (.mem (.srIndY o1)) s

/-- `LDA dp,X`, 0xB5 (R250; mode R126). -/
def execLdaDpX (o1 : Byte) (s : State) : Result := opLda (.mem (.dpIdx .x o1)) s

/-- `LDA [dp],Y`, 0xB7 (R250; mode R134). -/
def execLdaDpIndLongY (o1 : Byte) (s : State) : Result := opLda (.mem (.dpIndLongY o1)) s

/-- `LDA addr,Y`, 0xB9 (R250; mode R138). -/
def execLdaAbsY (a : Word) (s : State) : Result := opLda (.mem (.absIdx .y a)) s

/-- `LDA addr,X`, 0xBD (R250; mode R137). -/
def execLdaAbsX (a : Word) (s : State) : Result := opLda (.mem (.absIdx .x a)) s

/-- `LDA long,X`, 0xBF (R250; mode R140). -/
def execLdaLongX (l : Addr) (s : State) : Result := opLda (.mem (.longX l)) s

/-- `LDX #const`, 0xA2 (R251; mode R124). -/
def execLdxImm (k : Word) (s : State) : Result := opLdIdx .x (.imm k) s

/-- `LDX dp`, 0xA6 (R251; mode R125). -/
def execLdxDp (o1 : Byte) (s : State) : Result := opLdIdx .x (.mem (.dp o1)) s

/-- `LDX addr`, 0xAE (R251; mode R136). -/
def execLdxAbs (a : Word) (s : State) : Result := opLdIdx .x (.mem (.abs a)) s

/-- `LDX dp,X`, 0xB6 (R251; mode R127). -/
def execLdxDpIdx (o1 : Byte) (s : State) : Result := opLdIdx .x (.mem (.dpIdx s.cfg.ldxIndex o1)) s

/-- `LDX addr,X`, 0xBE (R251; mode R138). -/
def execLdxAbsIdx (a : Word) (s : State) : Result := opLdIdx .x (.mem (.absIdx s.cfg.ldxIndex a)) s

/-- `LDY #const`, 0xA0 (R252; mode R124). -/
def execLdyImm (k : Word) (s : State) : Result := opLdIdx .y (.imm k) s

/-- `LDY dp`, 0xA4 (R252; mode R125). -/
def execLdyDp (o1 : Byte) (s : State) : Result := opLdIdx .y (.mem (.dp o1)) s

/-- `LDY addr`, 0xAC (R252; mode R136). -/
def execLdyAbs (a : Word) (s : State) : Result := opLdIdx .y (.mem (.abs a)) s

/-- `LDY dp,X`, 0xB4 (R252; mode R126). -/
def execLdyDpX (o1 : Byte) (s : State) : Result := opLdIdx .y (.mem (.dpIdx .x o1)) s

/-- `LDY addr,X`, 0xBC (R252; mode R137). -/
def execLdyAbsX (a : Word) (s : State) : Result := opLdIdx .y (.mem (.absIdx .x a)) s

/-- `STA (dp,X)`, 0x81 (R253; mode R131). -/
def execStaDpXInd (o1 : Byte) (s : State) : Result := storeTo (.dpXInd o1) s.wm (s.accRead s.wm) s

/-- `STA sr,S`, 0x83 (R253; mode R141). -/
def execStaSr (o1 : Byte) (s : State) : Result := storeTo (.sr o1) s.wm (s.accRead s.wm) s

/-- `STA dp`, 0x85 (R253; mode R125). -/
def execStaDp (o1 : Byte) (s : State) : Result := storeTo (.dp o1) s.wm (s.accRead s.wm) s

/-- `STA [dp]`, 0x87 (R253; mode R133). -/
def execStaDpIndLong (o1 : Byte) (s : State) : Result := storeTo (.dpIndLong o1) s.wm (s.accRead s.wm) s

/-- `STA addr`, 0x8D (R253; mode R136). -/
def execStaAbs (a : Word) (s : State) : Result := storeTo (.abs a) s.wm (s.accRead s.wm) s

/-- `STA long`, 0x8F (R253; mode R139). -/
def execStaLong (l : Addr) (s : State) : Result := storeTo (.long l) s.wm (s.accRead s.wm) s

/-- `STA (dp),Y`, 0x91 (R253; mode R132). -/
def execStaDpIndY (o1 : Byte) (s : State) : Result := storeTo (.dpIndY o1) s.wm (s.accRead s.wm) s

/-- `STA (dp)`, 0x92 (R253; mode R130). -/
def execStaDpInd (o1 : Byte) (s : State) : Result := storeTo (.dpInd o1) s.wm (s.accRead s.wm) s

/-- `STA (sr,S),Y`, 0x93 (R253; mode R142). -/
def execStaSrIndY (o1 : Byte) (s : State) : Result := storeTo (.srIndY o1) s.wm (s.accRead s.wm) s

/-- `STA dp,X`, 0x95 (R253; mode R126). -/
def execStaDpX (o1 : Byte) (s : State) : Result := storeTo (.dpIdx .x o1) s.wm (s.accRead s.wm) s

/-- `STA [dp],Y`, 0x97 (R253; mode R134). -/
def execStaDpIndLongY (o1 : Byte) (s : State) : Result := storeTo (.dpIndLongY o1) s.wm (s.accRead s.wm) s

/-- `STA addr,Y`, 0x99 (R253; mode R138). -/
def execStaAbsY (a : Word) (s : State) : Result := storeTo (.absIdx .y a) s.wm (s.accRead s.wm) s

/-- `STA addr,X`, 0x9D (R253; mode R137). -/
def execStaAbsX (a : Word) (s : State) : Result := storeTo (.absIdx .x a) s.wm (s.accRead s.wm) s

/-- `STA long,X`, 0x9F (R253; mode R140). -/
def execStaLongX (l : Addr) (s : State) : Result := storeTo (.longX l) s.wm (s.accRead s.wm) s

/-- `STX dp`, 0x86 (R254; mode R125). -/
def execStxDp (o1 : Byte) (s : State) : Result := storeTo (.dp o1) s.wx (trunc s.wx s.x) s

/-- `STX addr`, 0x8E (R254; mode R136). -/
def execStxAbs (a : Word) (s : State) : Result := storeTo (.abs a) s.wx (trunc s.wx s.x) s

/-- `STX dp,Y`, 0x96 (R254; mode R127). -/
def execStxDpY (o1 : Byte) (s : State) : Result := storeTo (.dpIdx .y o1) s.wx (trunc s.wx s.x) s

/-- `STY dp`, 0x84 (R255; mode R125). -/
def execStyDp (o1 : Byte) (s : State) : Result := storeTo (.dp o1) s.wx (trunc s.wx s.y) s

/-- `STY addr`, 0x8C (R255; mode R136). -/
def execStyAbs (a : Word) (s : State) : Result := storeTo (.abs a) s.wx (trunc s.wx s.y) s

/-- `STY dp,X`, 0x94 (R255; mode R126). -/
def execStyDpX (o1 : Byte) (s : State) : Result := storeTo (.dpIdx .x o1) s.wx (trunc s.wx s.y) s

/-- `STZ dp`, 0x64 (R256; mode R125). -/
def execStzDp (o1 : Byte) (s : State) : Result := storeTo (.dp o1) s.wm 0 s

/-- `STZ dp,X`, 0x74 (R256; mode R126). -/
def execStzDpX (o1 : Byte) (s : State) : Result := storeTo (.dpIdx .x o1) s.wm 0 s

/-- `STZ addr`, 0x9C (R256; mode R136). -/
def execStzAbs (a : Word) (s : State) : Result := storeTo (.abs a) s.wm 0 s

/-- `STZ addr,X`, 0x9E (R256; mode R137). -/
def execStzAbsX (a : Word) (s : State) : Result := storeTo (.absIdx .x a) s.wm 0 s

/-- `TAX`, 0xAA (R258). -/
def execTax (s : State) : Result := toIdx .x s.c s

/-- `TAY`, 0xA8 (R259). -/
def execTay (s : State) : Result := toIdx .y s.c s

/-- `TSX`, 0xBA (R264). -/
def execTsx (s : State) : Result := toIdx .x s.sp s

/-- `TXY`, 0x9B (R267). -/
def execTxy (s : State) : Result := toIdx .y s.x s

/-- `TYX`, 0xBB (R269). -/
def execTyx (s : State) : Result := toIdx .x s.y s

/-- `TXA`, 0x8A (R265). -/
def execTxa (s : State) : Result := toAcc s.x s

/-- `TYA`, 0x98 (R268). -/
def execTya (s : State) : Result := toAcc s.y s

/-- `TCD`, 0x5B (R260). -/
def execTcd (s : State) : Result :=
  .next (({ s with d := s.c } : State).setNZ .w16 s.c |>.advance 1)

/-- `TDC`, 0x7B (R262). -/
def execTdc (s : State) : Result :=
  .next (({ s with c := s.d } : State).setNZ .w16 s.d |>.advance 1)

/-- `TSC`, 0x3B (R263). -/
def execTsc (s : State) : Result :=
  .next (({ s with c := s.sp } : State).setNZ .w16 s.sp |>.advance 1)

/-- `TCS`, 0x1B (R261). -/
def execTcs (s : State) : Result := toS s.c s

/-- `TXS`, 0x9A (R266). -/
def execTxs (s : State) : Result := toS s.x s

/-- `XBA`, 0xEB (R270). -/
def execXba (s : State) : Result :=
  .next (({ s with c := wordOf (highByte s.c) (lowByte s.c) } : State).setNZ .w8 (wordOf (highByte s.c) 0) |>.advance 1)

end Sys2Proof.Machine
end

