-- ==== Sys2Proof/Machine/Stack.lean ====
section
/-! DEFINITION. Stack operations: the pulls and pushes (45_stack.md). -/

namespace Sys2Proof.Machine

/-- PLX and PLY (R290, R291). -/
def pullIdx (r : IdxReg) (s : State) : Result :=
  (pullW s.wx s).andThen fun v s1 => .next (((s1.idxWrite r s.wx v).setNZ s.wx v).advance 1)

/-- A push instruction of `n` bytes: no flags (R284). -/
def pushing (x : Access Unit) (n : Nat) : Result := x.andThen fun _ s1 => .next (s1.advance n)

/-- `PLA`, 0x68 (R285). -/
def execPla (s : State) : Result :=
  (pullW s.wm s).andThen fun r s1 => .next (((s1.accWrite s.wm r).setNZ s.wm r).advance 1)

/-- `PLB`, 0xAB (R286). -/
def execPlb (s : State) : Result :=
  (pull8 s).andThen fun r s1 => .next ((({ s1 with dbr := r } : State).setNZ .w8 (wordOf r 0)).advance 1)

/-- `PLD`, 0x2B (R287). -/
def execPld (s : State) : Result :=
  (pull16 s).andThen fun r s1 => .next ((({ s1 with d := r } : State).setNZ .w16 r).advance 1)

/-- `PLP`, 0x28 (R289). -/
def execPlp (s : State) : Result :=
  (pull8 s).andThen fun v s1 => .next ((s1.loadP v).advance 1)

/-- `PLX`, 0xFA (R290). -/
def execPlx (s : State) : Result := pullIdx .x s

/-- `PLY`, 0x7A (R291). -/
def execPly (s : State) : Result := pullIdx .y s

/-- `PEA addr`, 0xF4 (R296; mode R148). -/
def execPea (a : Word) (s : State) : Result := pushing (push16 a s) 3

/-- `PEI (dp)`, 0xD4 (R297; mode R135). -/
def execPei (o1 : Byte) (s : State) : Result :=
  (read16 (s.dpLongAddr o1) .bank s).andThen fun v s1 => pushing (push16 v s1) 2

/-- `PER label`, 0x62 (R298; mode R148). -/
def execPer (rel : Word) (s : State) : Result := pushing (push16 (s.relLong rel) s) 3

/-- `PHA`, 0x48 (R292). -/
def execPha (s : State) : Result := pushing (pushW s.wm s.c s) 1

/-- `PHB`, 0x8B (R293). -/
def execPhb (s : State) : Result := pushing (push8 s.dbr s) 1

/-- `PHD`, 0x0B (R294). -/
def execPhd (s : State) : Result := pushing (push16 s.d s) 1

/-- `PHK`, 0x4B (R295). -/
def execPhk (s : State) : Result := pushing (push8 s.pbr s) 1

/-- `PHP`, 0x08 (R299). -/
def execPhp (s : State) : Result :=
  pushing (push8 (if s.emulation then s.p ||| 0x30 else s.p) s) 1

/-- `PHX`, 0xDA (R300). -/
def execPhx (s : State) : Result := pushing (pushW s.wx s.x s) 1

/-- `PHY`, 0x5A (R301). -/
def execPhy (s : State) : Result := pushing (pushW s.wx s.y s) 1

end Sys2Proof.Machine
end

