-- ==== Sys2Proof/Machine/Dispatch.lean ====
section
/-! DEFINITION. The meaning of every instruction, one arm per constructor of Instr, in the order of the opcode byte. -/

namespace Sys2Proof.Machine

def exec (i : Instr) (s : State) : Host.Outcome State Fault Refusal :=
  match i with
  | .brk sig => Sys2Proof.Machine.execBrk sig s
  | .oraDpXInd o1 => Sys2Proof.Machine.execOraDpXInd o1 s
  | .cop sig => Sys2Proof.Machine.execCop sig s
  | .oraSr o1 => Sys2Proof.Machine.execOraSr o1 s
  | .tsbDp o1 => Sys2Proof.Machine.execTsbDp o1 s
  | .oraDp o1 => Sys2Proof.Machine.execOraDp o1 s
  | .aslDp o1 => Sys2Proof.Machine.execAslDp o1 s
  | .oraDpIndLong o1 => Sys2Proof.Machine.execOraDpIndLong o1 s
  | .php => Sys2Proof.Machine.execPhp s
  | .oraImm k => Sys2Proof.Machine.execOraImm k s
  | .aslA => Sys2Proof.Machine.execAslA s
  | .phd => Sys2Proof.Machine.execPhd s
  | .tsbAbs a => Sys2Proof.Machine.execTsbAbs a s
  | .oraAbs a => Sys2Proof.Machine.execOraAbs a s
  | .aslAbs a => Sys2Proof.Machine.execAslAbs a s
  | .oraLong l => Sys2Proof.Machine.execOraLong l s
  | .bpl rel => Sys2Proof.Machine.execBpl rel s
  | .oraDpIndY o1 => Sys2Proof.Machine.execOraDpIndY o1 s
  | .oraDpInd o1 => Sys2Proof.Machine.execOraDpInd o1 s
  | .oraSrIndY o1 => Sys2Proof.Machine.execOraSrIndY o1 s
  | .trbDp o1 => Sys2Proof.Machine.execTrbDp o1 s
  | .oraDpX o1 => Sys2Proof.Machine.execOraDpX o1 s
  | .aslDpX o1 => Sys2Proof.Machine.execAslDpX o1 s
  | .oraDpIndLongY o1 => Sys2Proof.Machine.execOraDpIndLongY o1 s
  | .clc => Sys2Proof.Machine.execClc s
  | .oraAbsY a => Sys2Proof.Machine.execOraAbsY a s
  | .incA => Sys2Proof.Machine.execIncA s
  | .tcs => Sys2Proof.Machine.execTcs s
  | .trbAbs a => Sys2Proof.Machine.execTrbAbs a s
  | .oraAbsX a => Sys2Proof.Machine.execOraAbsX a s
  | .aslAbsX a => Sys2Proof.Machine.execAslAbsX a s
  | .oraLongX l => Sys2Proof.Machine.execOraLongX l s
  | .jsrAbs a => Sys2Proof.Machine.execJsrAbs a s
  | .andDpXInd o1 => Sys2Proof.Machine.execAndDpXInd o1 s
  | .jsl l => Sys2Proof.Machine.execJsl l s
  | .andSr o1 => Sys2Proof.Machine.execAndSr o1 s
  | .bitDp o1 => Sys2Proof.Machine.execBitDp o1 s
  | .andDp o1 => Sys2Proof.Machine.execAndDp o1 s
  | .rolDp o1 => Sys2Proof.Machine.execRolDp o1 s
  | .andDpIndLong o1 => Sys2Proof.Machine.execAndDpIndLong o1 s
  | .plp => Sys2Proof.Machine.execPlp s
  | .andImm k => Sys2Proof.Machine.execAndImm k s
  | .rolA => Sys2Proof.Machine.execRolA s
  | .pld => Sys2Proof.Machine.execPld s
  | .bitAbs a => Sys2Proof.Machine.execBitAbs a s
  | .andAbs a => Sys2Proof.Machine.execAndAbs a s
  | .rolAbs a => Sys2Proof.Machine.execRolAbs a s
  | .andLong l => Sys2Proof.Machine.execAndLong l s
  | .bmi rel => Sys2Proof.Machine.execBmi rel s
  | .andDpIndY o1 => Sys2Proof.Machine.execAndDpIndY o1 s
  | .andDpInd o1 => Sys2Proof.Machine.execAndDpInd o1 s
  | .andSrIndY o1 => Sys2Proof.Machine.execAndSrIndY o1 s
  | .bitDpX o1 => Sys2Proof.Machine.execBitDpX o1 s
  | .andDpX o1 => Sys2Proof.Machine.execAndDpX o1 s
  | .rolDpX o1 => Sys2Proof.Machine.execRolDpX o1 s
  | .andDpIndLongY o1 => Sys2Proof.Machine.execAndDpIndLongY o1 s
  | .sec => Sys2Proof.Machine.execSec s
  | .andAbsY a => Sys2Proof.Machine.execAndAbsY a s
  | .decA => Sys2Proof.Machine.execDecA s
  | .tsc => Sys2Proof.Machine.execTsc s
  | .bitAbsX a => Sys2Proof.Machine.execBitAbsX a s
  | .andAbsX a => Sys2Proof.Machine.execAndAbsX a s
  | .rolAbsX a => Sys2Proof.Machine.execRolAbsX a s
  | .andLongX l => Sys2Proof.Machine.execAndLongX l s
  | .rti => Sys2Proof.Machine.execRti s
  | .eorDpXInd o1 => Sys2Proof.Machine.execEorDpXInd o1 s
  | .wdm sig => Sys2Proof.Machine.execWdm sig s
  | .eorSr o1 => Sys2Proof.Machine.execEorSr o1 s
  | .mvp o1 o2 => Sys2Proof.Machine.execMvp o1 o2 s
  | .eorDp o1 => Sys2Proof.Machine.execEorDp o1 s
  | .lsrDp o1 => Sys2Proof.Machine.execLsrDp o1 s
  | .eorDpIndLong o1 => Sys2Proof.Machine.execEorDpIndLong o1 s
  | .pha => Sys2Proof.Machine.execPha s
  | .eorImm k => Sys2Proof.Machine.execEorImm k s
  | .lsrA => Sys2Proof.Machine.execLsrA s
  | .phk => Sys2Proof.Machine.execPhk s
  | .jmpAbs a => Sys2Proof.Machine.execJmpAbs a s
  | .eorAbs a => Sys2Proof.Machine.execEorAbs a s
  | .lsrAbs a => Sys2Proof.Machine.execLsrAbs a s
  | .eorLong l => Sys2Proof.Machine.execEorLong l s
  | .bvc rel => Sys2Proof.Machine.execBvc rel s
  | .eorDpIndY o1 => Sys2Proof.Machine.execEorDpIndY o1 s
  | .eorDpInd o1 => Sys2Proof.Machine.execEorDpInd o1 s
  | .eorSrIndY o1 => Sys2Proof.Machine.execEorSrIndY o1 s
  | .mvn o1 o2 => Sys2Proof.Machine.execMvn o1 o2 s
  | .eorDpX o1 => Sys2Proof.Machine.execEorDpX o1 s
  | .lsrDpX o1 => Sys2Proof.Machine.execLsrDpX o1 s
  | .eorDpIndLongY o1 => Sys2Proof.Machine.execEorDpIndLongY o1 s
  | .cli => Sys2Proof.Machine.execCli s
  | .eorAbsY a => Sys2Proof.Machine.execEorAbsY a s
  | .phy => Sys2Proof.Machine.execPhy s
  | .tcd => Sys2Proof.Machine.execTcd s
  | .jmpLong l => Sys2Proof.Machine.execJmpLong l s
  | .eorAbsX a => Sys2Proof.Machine.execEorAbsX a s
  | .lsrAbsX a => Sys2Proof.Machine.execLsrAbsX a s
  | .eorLongX l => Sys2Proof.Machine.execEorLongX l s
  | .rts => Sys2Proof.Machine.execRts s
  | .adcDpXInd o1 => Sys2Proof.Machine.execAdcDpXInd o1 s
  | .per rel => Sys2Proof.Machine.execPer rel s
  | .adcSr o1 => Sys2Proof.Machine.execAdcSr o1 s
  | .stzDp o1 => Sys2Proof.Machine.execStzDp o1 s
  | .adcDp o1 => Sys2Proof.Machine.execAdcDp o1 s
  | .rorDp o1 => Sys2Proof.Machine.execRorDp o1 s
  | .adcDpIndLong o1 => Sys2Proof.Machine.execAdcDpIndLong o1 s
  | .pla => Sys2Proof.Machine.execPla s
  | .adcImm k => Sys2Proof.Machine.execAdcImm k s
  | .rorA => Sys2Proof.Machine.execRorA s
  | .rtl => Sys2Proof.Machine.execRtl s
  | .jmpAbsInd a => Sys2Proof.Machine.execJmpAbsInd a s
  | .adcAbs a => Sys2Proof.Machine.execAdcAbs a s
  | .rorAbs a => Sys2Proof.Machine.execRorAbs a s
  | .adcLong l => Sys2Proof.Machine.execAdcLong l s
  | .bvs rel => Sys2Proof.Machine.execBvs rel s
  | .adcDpIndY o1 => Sys2Proof.Machine.execAdcDpIndY o1 s
  | .adcDpInd o1 => Sys2Proof.Machine.execAdcDpInd o1 s
  | .adcSrIndY o1 => Sys2Proof.Machine.execAdcSrIndY o1 s
  | .stzDpX o1 => Sys2Proof.Machine.execStzDpX o1 s
  | .adcDpX o1 => Sys2Proof.Machine.execAdcDpX o1 s
  | .rorDpX o1 => Sys2Proof.Machine.execRorDpX o1 s
  | .adcDpIndLongY o1 => Sys2Proof.Machine.execAdcDpIndLongY o1 s
  | .sei => Sys2Proof.Machine.execSei s
  | .adcAbsY a => Sys2Proof.Machine.execAdcAbsY a s
  | .ply => Sys2Proof.Machine.execPly s
  | .tdc => Sys2Proof.Machine.execTdc s
  | .jmpAbsXInd a => Sys2Proof.Machine.execJmpAbsXInd a s
  | .adcAbsX a => Sys2Proof.Machine.execAdcAbsX a s
  | .rorAbsX a => Sys2Proof.Machine.execRorAbsX a s
  | .adcLongX l => Sys2Proof.Machine.execAdcLongX l s
  | .bra rel => Sys2Proof.Machine.execBra rel s
  | .staDpXInd o1 => Sys2Proof.Machine.execStaDpXInd o1 s
  | .brl rel => Sys2Proof.Machine.execBrl rel s
  | .staSr o1 => Sys2Proof.Machine.execStaSr o1 s
  | .styDp o1 => Sys2Proof.Machine.execStyDp o1 s
  | .staDp o1 => Sys2Proof.Machine.execStaDp o1 s
  | .stxDp o1 => Sys2Proof.Machine.execStxDp o1 s
  | .staDpIndLong o1 => Sys2Proof.Machine.execStaDpIndLong o1 s
  | .dey => Sys2Proof.Machine.execDey s
  | .bitImm k => Sys2Proof.Machine.execBitImm k s
  | .txa => Sys2Proof.Machine.execTxa s
  | .phb => Sys2Proof.Machine.execPhb s
  | .styAbs a => Sys2Proof.Machine.execStyAbs a s
  | .staAbs a => Sys2Proof.Machine.execStaAbs a s
  | .stxAbs a => Sys2Proof.Machine.execStxAbs a s
  | .staLong l => Sys2Proof.Machine.execStaLong l s
  | .bcc rel => Sys2Proof.Machine.execBcc rel s
  | .staDpIndY o1 => Sys2Proof.Machine.execStaDpIndY o1 s
  | .staDpInd o1 => Sys2Proof.Machine.execStaDpInd o1 s
  | .staSrIndY o1 => Sys2Proof.Machine.execStaSrIndY o1 s
  | .styDpX o1 => Sys2Proof.Machine.execStyDpX o1 s
  | .staDpX o1 => Sys2Proof.Machine.execStaDpX o1 s
  | .stxDpY o1 => Sys2Proof.Machine.execStxDpY o1 s
  | .staDpIndLongY o1 => Sys2Proof.Machine.execStaDpIndLongY o1 s
  | .tya => Sys2Proof.Machine.execTya s
  | .staAbsY a => Sys2Proof.Machine.execStaAbsY a s
  | .txs => Sys2Proof.Machine.execTxs s
  | .txy => Sys2Proof.Machine.execTxy s
  | .stzAbs a => Sys2Proof.Machine.execStzAbs a s
  | .staAbsX a => Sys2Proof.Machine.execStaAbsX a s
  | .stzAbsX a => Sys2Proof.Machine.execStzAbsX a s
  | .staLongX l => Sys2Proof.Machine.execStaLongX l s
  | .ldyImm k => Sys2Proof.Machine.execLdyImm k s
  | .ldaDpXInd o1 => Sys2Proof.Machine.execLdaDpXInd o1 s
  | .ldxImm k => Sys2Proof.Machine.execLdxImm k s
  | .ldaSr o1 => Sys2Proof.Machine.execLdaSr o1 s
  | .ldyDp o1 => Sys2Proof.Machine.execLdyDp o1 s
  | .ldaDp o1 => Sys2Proof.Machine.execLdaDp o1 s
  | .ldxDp o1 => Sys2Proof.Machine.execLdxDp o1 s
  | .ldaDpIndLong o1 => Sys2Proof.Machine.execLdaDpIndLong o1 s
  | .tay => Sys2Proof.Machine.execTay s
  | .ldaImm k => Sys2Proof.Machine.execLdaImm k s
  | .tax => Sys2Proof.Machine.execTax s
  | .plb => Sys2Proof.Machine.execPlb s
  | .ldyAbs a => Sys2Proof.Machine.execLdyAbs a s
  | .ldaAbs a => Sys2Proof.Machine.execLdaAbs a s
  | .ldxAbs a => Sys2Proof.Machine.execLdxAbs a s
  | .ldaLong l => Sys2Proof.Machine.execLdaLong l s
  | .bcs rel => Sys2Proof.Machine.execBcs rel s
  | .ldaDpIndY o1 => Sys2Proof.Machine.execLdaDpIndY o1 s
  | .ldaDpInd o1 => Sys2Proof.Machine.execLdaDpInd o1 s
  | .ldaSrIndY o1 => Sys2Proof.Machine.execLdaSrIndY o1 s
  | .ldyDpX o1 => Sys2Proof.Machine.execLdyDpX o1 s
  | .ldaDpX o1 => Sys2Proof.Machine.execLdaDpX o1 s
  | .ldxDpIdx o1 => Sys2Proof.Machine.execLdxDpIdx o1 s
  | .ldaDpIndLongY o1 => Sys2Proof.Machine.execLdaDpIndLongY o1 s
  | .clv => Sys2Proof.Machine.execClv s
  | .ldaAbsY a => Sys2Proof.Machine.execLdaAbsY a s
  | .tsx => Sys2Proof.Machine.execTsx s
  | .tyx => Sys2Proof.Machine.execTyx s
  | .ldyAbsX a => Sys2Proof.Machine.execLdyAbsX a s
  | .ldaAbsX a => Sys2Proof.Machine.execLdaAbsX a s
  | .ldxAbsIdx a => Sys2Proof.Machine.execLdxAbsIdx a s
  | .ldaLongX l => Sys2Proof.Machine.execLdaLongX l s
  | .cpyImm k => Sys2Proof.Machine.execCpyImm k s
  | .cmpDpXInd o1 => Sys2Proof.Machine.execCmpDpXInd o1 s
  | .rep k => Sys2Proof.Machine.execRep k s
  | .cmpSr o1 => Sys2Proof.Machine.execCmpSr o1 s
  | .cpyDp o1 => Sys2Proof.Machine.execCpyDp o1 s
  | .cmpDp o1 => Sys2Proof.Machine.execCmpDp o1 s
  | .decDp o1 => Sys2Proof.Machine.execDecDp o1 s
  | .cmpDpIndLong o1 => Sys2Proof.Machine.execCmpDpIndLong o1 s
  | .iny => Sys2Proof.Machine.execIny s
  | .cmpImm k => Sys2Proof.Machine.execCmpImm k s
  | .dex => Sys2Proof.Machine.execDex s
  | .wai => Sys2Proof.Machine.execWai s
  | .cpyAbs a => Sys2Proof.Machine.execCpyAbs a s
  | .cmpAbs a => Sys2Proof.Machine.execCmpAbs a s
  | .decAbs a => Sys2Proof.Machine.execDecAbs a s
  | .cmpLong l => Sys2Proof.Machine.execCmpLong l s
  | .bne rel => Sys2Proof.Machine.execBne rel s
  | .cmpDpIndY o1 => Sys2Proof.Machine.execCmpDpIndY o1 s
  | .cmpDpInd o1 => Sys2Proof.Machine.execCmpDpInd o1 s
  | .cmpSrIndY o1 => Sys2Proof.Machine.execCmpSrIndY o1 s
  | .pei o1 => Sys2Proof.Machine.execPei o1 s
  | .cmpDpX o1 => Sys2Proof.Machine.execCmpDpX o1 s
  | .decDpX o1 => Sys2Proof.Machine.execDecDpX o1 s
  | .cmpDpIndLongY o1 => Sys2Proof.Machine.execCmpDpIndLongY o1 s
  | .cld => Sys2Proof.Machine.execCld s
  | .cmpAbsY a => Sys2Proof.Machine.execCmpAbsY a s
  | .phx => Sys2Proof.Machine.execPhx s
  | .stp => Sys2Proof.Machine.execStp s
  | .jmpAbsIndLong a => Sys2Proof.Machine.execJmpAbsIndLong a s
  | .cmpAbsX a => Sys2Proof.Machine.execCmpAbsX a s
  | .decAbsX a => Sys2Proof.Machine.execDecAbsX a s
  | .cmpLongX l => Sys2Proof.Machine.execCmpLongX l s
  | .cpxImm k => Sys2Proof.Machine.execCpxImm k s
  | .sbcDpXInd o1 => Sys2Proof.Machine.execSbcDpXInd o1 s
  | .sep k => Sys2Proof.Machine.execSep k s
  | .sbcSr o1 => Sys2Proof.Machine.execSbcSr o1 s
  | .cpxDp o1 => Sys2Proof.Machine.execCpxDp o1 s
  | .sbcDp o1 => Sys2Proof.Machine.execSbcDp o1 s
  | .incDp o1 => Sys2Proof.Machine.execIncDp o1 s
  | .sbcDpIndLong o1 => Sys2Proof.Machine.execSbcDpIndLong o1 s
  | .inx => Sys2Proof.Machine.execInx s
  | .sbcImm k => Sys2Proof.Machine.execSbcImm k s
  | .nop => Sys2Proof.Machine.execNop s
  | .xba => Sys2Proof.Machine.execXba s
  | .cpxAbs a => Sys2Proof.Machine.execCpxAbs a s
  | .sbcAbs a => Sys2Proof.Machine.execSbcAbs a s
  | .incAbs a => Sys2Proof.Machine.execIncAbs a s
  | .sbcLong l => Sys2Proof.Machine.execSbcLong l s
  | .beq rel => Sys2Proof.Machine.execBeq rel s
  | .sbcDpIndY o1 => Sys2Proof.Machine.execSbcDpIndY o1 s
  | .sbcDpInd o1 => Sys2Proof.Machine.execSbcDpInd o1 s
  | .sbcSrIndY o1 => Sys2Proof.Machine.execSbcSrIndY o1 s
  | .pea a => Sys2Proof.Machine.execPea a s
  | .sbcDpX o1 => Sys2Proof.Machine.execSbcDpX o1 s
  | .incDpX o1 => Sys2Proof.Machine.execIncDpX o1 s
  | .sbcDpIndLongY o1 => Sys2Proof.Machine.execSbcDpIndLongY o1 s
  | .sed => Sys2Proof.Machine.execSed s
  | .sbcAbsY a => Sys2Proof.Machine.execSbcAbsY a s
  | .plx => Sys2Proof.Machine.execPlx s
  | .xce => Sys2Proof.Machine.execXce s
  | .jsrAbsXInd a => Sys2Proof.Machine.execJsrAbsXInd a s
  | .sbcAbsX a => Sys2Proof.Machine.execSbcAbsX a s
  | .incAbsX a => Sys2Proof.Machine.execIncAbsX a s
  | .sbcLongX l => Sys2Proof.Machine.execSbcLongX l s

end Sys2Proof.Machine
end

