-- ==== Sys2Proof/Machine/Boundary.lean ====
section
/-! DEFINITION. What happens at an instruction boundary: the environment's inputs, the acceptance of interrupts, the run
states (60_exceptions.md R345 to R353, R366, R369; 46_interrupt_instructions.md R313; 47_miscellaneous.md R327). -/

namespace Sys2Proof.Machine

/-- What the environment does at this boundary: the head of `inputs`; when the list is empty the IRQ input keeps its
level and nothing else is asserted (log 7). -/
def State.nextInput (s : State) : EnvInput :=
  match s.inputs with
  | [] => { irqLine := s.irqLine, nmiEdge := false, reset := false, abort := false, overflowPin := false }
  | i :: _ => i

/-- Take the input of this boundary: the IRQ level is the input's, and an NMI edge sets the latch (R345). -/
def State.latchInput (s : State) : State :=
  { s with irqLine := s.nextInput.irqLine, nmiPending := s.nmiPending || s.nextInput.nmiEdge, inputs := s.inputs.tail }

/-- Fetch, decode and execute the instruction at PBR:PC (R369). -/
def executeNext (s : State) : Result := (fetchInstr s).andThen fun i s1 => exec i s1

/-- Taking the NMI clears its latch (R346). -/
def takeNmi (s : State) : Result := enter .nmi s.pc { s with nmiPending := false }

/-- The boundary while `run = Running` (R346, R350): RESET, then ABORT (refused, U12), then the overflow pin sets v (U13),
then NMI, then IRQ if i is 0, else the next instruction. DESIGN CHOICE (unsafe, log 10): the pin sets v here. -/
def boundaryRunning (inp : EnvInput) (s : State) : Result :=
  if inp.reset then resetEvent s
  else if inp.abort then .refused .abortAsserted
  else
    let s := if inp.overflowPin then s.setFlag .v true else s
    if s.nmiPending then takeNmi s
    else if s.irqLine && !s.flag .i then enter .irq s.pc s
    else executeNext s

/-- The boundary while `run = Waiting` (46_interrupt_instructions.md R313): NMI and IRQ wake the processor; with i set an
IRQ wakes it without entering a handler. ABORT is refused (U12, log 9). DESIGN CHOICE (unsafe, log 10): the overflow pin
has no effect here. DEDUCED (safe, log 28): with nothing to wake it, only the input has been taken. -/
def boundaryWaiting (inp : EnvInput) (s : State) : Result :=
  if inp.reset then resetEvent s
  else if inp.abort then .refused .abortAsserted
  else if s.nmiPending then takeNmi { s with run := .running }
  else if s.irqLine then
    if s.flag .i then .next { s with run := .running } else enter .irq s.pc { s with run := .running }
  else .next s

/-- The boundary while `run = Stopped` (47_miscellaneous.md R327): only RESET is looked at. DESIGN CHOICE (unsafe, log 10): the overflow pin
has no effect here. DEDUCED (safe, log 27, 28): an NMI edge has been latched with the input. -/
def boundaryStopped (inp : EnvInput) (s : State) : Result :=
  if inp.reset then resetEvent s else .next s

/-- The step function of R369, on a state whose input has been taken. -/
def boundary (inp : EnvInput) (s : State) : Result :=
  match s.run with
  | .running => boundaryRunning inp s
  | .waiting => boundaryWaiting inp s
  | .stopped => boundaryStopped inp s

end Sys2Proof.Machine
end

