-- ==== Sys2Proof/Machine/Step.lean ====
section
/-! DEFINITION. One step of the machine (60_exceptions.md R369), and the placing of one instruction where the next step
fetches. -/

namespace Sys2Proof.Machine

/-- One step: the environment's input, then an interrupt, or an instruction, or nothing. -/
def step (s : State) : Host.Outcome State Fault Refusal := boundary s.nextInput s.latchInput

/-- Put bytes at consecutive offsets of the program bank from PC on. -/
def State.putProgram (s : State) : Nat → List Byte → State
  | _, [] => s
  | k, b :: bs => State.putProgram (s.putCell (s.fetchAddr k) b) (k + 1) bs

/-- `s` with the instruction of a table word stored at PBR:PC, running, and with no input or interrupt that could come
before it, so that the next step fetches and runs it (log 19). -/
def State.withFetchWord (s : State) (nbits w : Nat) : State :=
  { s.putProgram 0 (tableBytes nbits w) with run := .running, nmiPending := false, irqLine := false, inputs := [] }

end Sys2Proof.Machine
end

