-- ==== Sys2Proof/Safety.lean ====
section
/-! DEFINITION. What counts as a safe run, in the terms the statements use: the invariant of 10_state.md R40, a memory
map with no device, a boundary at which nothing comes before the next instruction; and the words of a frame: which
registers, flags and bytes of memory an instruction leaves as they were. -/

namespace Sys2Proof.Machine

/-- 10_state.md R40 (a): 8-bit index registers have no high byte. -/
def State.idxNarrow (s : State) : Bool :=
  s.wx == .w16 || (highByte s.x == 0 && highByte s.y == 0)

/-- 10_state.md R40 (b): in emulation mode `S[15:8] = 0x01` and m = x = 1. -/
def State.emulationForced (s : State) : Bool :=
  !s.emulation || (highByte s.sp == 1 && s.flag .m && s.flag .x)

/-- 10_state.md R39, R40 (c), R41: what is fixed on the 8-bit variants. -/
def State.variantFixed (s : State) : Bool :=
  s.is816 || (s.e && s.d == 0 && s.dbr == 0 && s.pbr == 0 && s.run == .running)

/-- The invariant of every reachable state: 10_state.md R40, and the canonical form of memory. -/
def State.inv (s : State) : Bool :=
  s.idxNarrow && s.emulationForced && s.variantFixed && s.mem.wf

/-- No address is a device's (20_memory.md R68), so no access is refused. -/
def NoDevice (cfg : Config) : Prop := ∀ r ∈ cfg.memMap.regions, r.kind ≠ .device

/-- Every address is RAM or ROM, so every access gives the byte that memory holds. -/
def AllBacked (cfg : Config) : Prop := ∀ r ∈ cfg.memMap.regions, r.kind = .ram ∨ r.kind = .rom

/-- Every address is RAM, the default of the spec's test vectors (20_memory.md R68). -/
def AllRam (cfg : Config) : Prop := ∀ r ∈ cfg.memMap.regions, r.kind = .ram

/-- Running, and nothing at this boundary comes before the next instruction (60_exceptions.md R346). -/
def State.quiet (s : State) : Bool :=
  s.run == .running && !s.nextInput.reset && !s.nextInput.abort && !s.nextInput.overflowPin &&
    !(s.nmiPending || s.nextInput.nmiEdge) && !(s.nextInput.irqLine && !s.flag .i)

/-- A step that has a meaning. -/
def Completes (s : State) : Prop := ∃ t, step s = .next t

/-! ## Frames -/

/-- The parts of the state that a frame speaks of one by one; P is spoken of flag by flag, memory byte by byte. -/
inductive Reg where
  | c | x | y | sp | d | dbr | pbr | pc | e | run | nmiPending | irqLine | inputs | cfg
  deriving DecidableEq, Repr

/-- Is this part the same in `s` and `t`? -/
def Reg.Same (s t : State) : Reg → Prop
  | .c => t.c = s.c
  | .x => t.x = s.x
  | .y => t.y = s.y
  | .sp => t.sp = s.sp
  | .d => t.d = s.d
  | .dbr => t.dbr = s.dbr
  | .pbr => t.pbr = s.pbr
  | .pc => t.pc = s.pc
  | .e => t.e = s.e
  | .run => t.run = s.run
  | .nmiPending => t.nmiPending = s.nmiPending
  | .irqLine => t.irqLine = s.irqLine
  | .inputs => t.inputs = s.inputs
  | .cfg => t.cfg = s.cfg

/-- Every part but those of `rs` is the same. -/
def RegsBut (rs : List Reg) (s t : State) : Prop := ∀ r, r ∉ rs → r.Same s t

/-- Every flag but those of `fs` is the same; the eight flags are the eight bits of P (10_state.md R28). -/
def FlagsBut (fs : List Flag) (s t : State) : Prop := ∀ f, f ∉ fs → t.flag f = s.flag f

/-- Every byte of memory but those at the addresses `as` is the same. -/
def MemBut (as : List Addr) (s t : State) : Prop :=
  ∀ a, (∀ b ∈ as, busAddr s.cfg b ≠ busAddr s.cfg a) → t.cell a = s.cell a

/-- What an instruction leaves as it was: every part but `rs`, every flag but `fs`, every byte but those at `as`. -/
def Frame (rs : List Reg) (fs : List Flag) (as : List Addr) (s t : State) : Prop :=
  RegsBut rs s t ∧ FlagsBut fs s t ∧ MemBut as s t

/-! ## Single bytes of memory -/

/-- An access to this address is not refused (20_memory.md R68). -/
abbrev NotDevice (s : State) (a : Addr) : Prop := kindAt s.cfg a ≠ .device

/-- A read of this address gives the byte that memory holds there: RAM or ROM. -/
abbrev Backed (s : State) (a : Addr) : Prop := kindAt s.cfg a = .ram ∨ kindAt s.cfg a = .rom

/-- The byte `b` has been written to `a`: RAM holds it, and any other address keeps what it held (20_memory.md R68). -/
def Stored (s t : State) (a : Addr) (b : Byte) : Prop :=
  t.cell a = if kindAt s.cfg a = .ram then b else s.cell a

end Sys2Proof.Machine
end

