-- ==== Sys2Proof/Forms.lean ====
section
/-! DEFINITION. The operand forms of the data instructions, one table per mnemonic, read from the encoding tables of the
spec (41_arithmetic.md R172, 42_binary.md R192, 43_program_flow.md R234, 44_registers.md R271), and the words in which the
statements say results: numbers, and no function that a meaning computes with. -/

namespace Sys2Proof.Machine

/-! ## Which operand forms an instruction has -/

/-- The forms of ADC (R172). -/
def adcForm : Source → Option Instr
  | .imm k => some (.adcImm k)
  | .mem (.abs a) => some (.adcAbs a)
  | .mem (.long l) => some (.adcLong l)
  | .mem (.dp o1) => some (.adcDp o1)
  | .mem (.dpInd o1) => some (.adcDpInd o1)
  | .mem (.dpIndLong o1) => some (.adcDpIndLong o1)
  | .mem (.absIdx .x a) => some (.adcAbsX a)
  | .mem (.longX l) => some (.adcLongX l)
  | .mem (.absIdx .y a) => some (.adcAbsY a)
  | .mem (.dpIdx .x o1) => some (.adcDpX o1)
  | .mem (.dpXInd o1) => some (.adcDpXInd o1)
  | .mem (.dpIndY o1) => some (.adcDpIndY o1)
  | .mem (.dpIndLongY o1) => some (.adcDpIndLongY o1)
  | .mem (.sr o1) => some (.adcSr o1)
  | .mem (.srIndY o1) => some (.adcSrIndY o1)
  | _ => none

/-- The forms of SBC (R172). -/
def sbcForm : Source → Option Instr
  | .imm k => some (.sbcImm k)
  | .mem (.abs a) => some (.sbcAbs a)
  | .mem (.long l) => some (.sbcLong l)
  | .mem (.dp o1) => some (.sbcDp o1)
  | .mem (.dpInd o1) => some (.sbcDpInd o1)
  | .mem (.dpIndLong o1) => some (.sbcDpIndLong o1)
  | .mem (.absIdx .x a) => some (.sbcAbsX a)
  | .mem (.longX l) => some (.sbcLongX l)
  | .mem (.absIdx .y a) => some (.sbcAbsY a)
  | .mem (.dpIdx .x o1) => some (.sbcDpX o1)
  | .mem (.dpXInd o1) => some (.sbcDpXInd o1)
  | .mem (.dpIndY o1) => some (.sbcDpIndY o1)
  | .mem (.dpIndLongY o1) => some (.sbcDpIndLongY o1)
  | .mem (.sr o1) => some (.sbcSr o1)
  | .mem (.srIndY o1) => some (.sbcSrIndY o1)
  | _ => none

/-- The forms of AND (R192). -/
def andForm : Source → Option Instr
  | .imm k => some (.andImm k)
  | .mem (.abs a) => some (.andAbs a)
  | .mem (.long l) => some (.andLong l)
  | .mem (.dp o1) => some (.andDp o1)
  | .mem (.dpInd o1) => some (.andDpInd o1)
  | .mem (.dpIndLong o1) => some (.andDpIndLong o1)
  | .mem (.absIdx .x a) => some (.andAbsX a)
  | .mem (.longX l) => some (.andLongX l)
  | .mem (.absIdx .y a) => some (.andAbsY a)
  | .mem (.dpIdx .x o1) => some (.andDpX o1)
  | .mem (.dpXInd o1) => some (.andDpXInd o1)
  | .mem (.dpIndY o1) => some (.andDpIndY o1)
  | .mem (.dpIndLongY o1) => some (.andDpIndLongY o1)
  | .mem (.sr o1) => some (.andSr o1)
  | .mem (.srIndY o1) => some (.andSrIndY o1)
  | _ => none

/-- The forms of EOR (R192). -/
def eorForm : Source → Option Instr
  | .imm k => some (.eorImm k)
  | .mem (.abs a) => some (.eorAbs a)
  | .mem (.long l) => some (.eorLong l)
  | .mem (.dp o1) => some (.eorDp o1)
  | .mem (.dpInd o1) => some (.eorDpInd o1)
  | .mem (.dpIndLong o1) => some (.eorDpIndLong o1)
  | .mem (.absIdx .x a) => some (.eorAbsX a)
  | .mem (.longX l) => some (.eorLongX l)
  | .mem (.absIdx .y a) => some (.eorAbsY a)
  | .mem (.dpIdx .x o1) => some (.eorDpX o1)
  | .mem (.dpXInd o1) => some (.eorDpXInd o1)
  | .mem (.dpIndY o1) => some (.eorDpIndY o1)
  | .mem (.dpIndLongY o1) => some (.eorDpIndLongY o1)
  | .mem (.sr o1) => some (.eorSr o1)
  | .mem (.srIndY o1) => some (.eorSrIndY o1)
  | _ => none

/-- The forms of ORA (R192). -/
def oraForm : Source → Option Instr
  | .imm k => some (.oraImm k)
  | .mem (.abs a) => some (.oraAbs a)
  | .mem (.long l) => some (.oraLong l)
  | .mem (.dp o1) => some (.oraDp o1)
  | .mem (.dpInd o1) => some (.oraDpInd o1)
  | .mem (.dpIndLong o1) => some (.oraDpIndLong o1)
  | .mem (.absIdx .x a) => some (.oraAbsX a)
  | .mem (.longX l) => some (.oraLongX l)
  | .mem (.absIdx .y a) => some (.oraAbsY a)
  | .mem (.dpIdx .x o1) => some (.oraDpX o1)
  | .mem (.dpXInd o1) => some (.oraDpXInd o1)
  | .mem (.dpIndY o1) => some (.oraDpIndY o1)
  | .mem (.dpIndLongY o1) => some (.oraDpIndLongY o1)
  | .mem (.sr o1) => some (.oraSr o1)
  | .mem (.srIndY o1) => some (.oraSrIndY o1)
  | _ => none

/-- The forms of CMP (R234). -/
def cmpForm : Source → Option Instr
  | .imm k => some (.cmpImm k)
  | .mem (.abs a) => some (.cmpAbs a)
  | .mem (.long l) => some (.cmpLong l)
  | .mem (.dp o1) => some (.cmpDp o1)
  | .mem (.dpInd o1) => some (.cmpDpInd o1)
  | .mem (.dpIndLong o1) => some (.cmpDpIndLong o1)
  | .mem (.absIdx .x a) => some (.cmpAbsX a)
  | .mem (.longX l) => some (.cmpLongX l)
  | .mem (.absIdx .y a) => some (.cmpAbsY a)
  | .mem (.dpIdx .x o1) => some (.cmpDpX o1)
  | .mem (.dpXInd o1) => some (.cmpDpXInd o1)
  | .mem (.dpIndY o1) => some (.cmpDpIndY o1)
  | .mem (.dpIndLongY o1) => some (.cmpDpIndLongY o1)
  | .mem (.sr o1) => some (.cmpSr o1)
  | .mem (.srIndY o1) => some (.cmpSrIndY o1)
  | _ => none

/-- The forms of LDA (R271). -/
def ldaForm : Source → Option Instr
  | .imm k => some (.ldaImm k)
  | .mem (.abs a) => some (.ldaAbs a)
  | .mem (.long l) => some (.ldaLong l)
  | .mem (.dp o1) => some (.ldaDp o1)
  | .mem (.dpInd o1) => some (.ldaDpInd o1)
  | .mem (.dpIndLong o1) => some (.ldaDpIndLong o1)
  | .mem (.absIdx .x a) => some (.ldaAbsX a)
  | .mem (.longX l) => some (.ldaLongX l)
  | .mem (.absIdx .y a) => some (.ldaAbsY a)
  | .mem (.dpIdx .x o1) => some (.ldaDpX o1)
  | .mem (.dpXInd o1) => some (.ldaDpXInd o1)
  | .mem (.dpIndY o1) => some (.ldaDpIndY o1)
  | .mem (.dpIndLongY o1) => some (.ldaDpIndLongY o1)
  | .mem (.sr o1) => some (.ldaSr o1)
  | .mem (.srIndY o1) => some (.ldaSrIndY o1)
  | _ => none

/-- The forms of LDX (R271); `idx` is `LDX_INDEX` (R251). -/
def ldxForm (idx : IdxReg) : Source → Option Instr
  | .imm k => some (.ldxImm k)
  | .mem (.abs a) => some (.ldxAbs a)
  | .mem (.dp o1) => some (.ldxDp o1)
  | .mem (.absIdx r a) => if r = idx then some (.ldxAbsIdx a) else none
  | .mem (.dpIdx r o1) => if r = idx then some (.ldxDpIdx o1) else none
  | _ => none

/-- The forms of LDY (R271). -/
def ldyForm : Source → Option Instr
  | .imm k => some (.ldyImm k)
  | .mem (.abs a) => some (.ldyAbs a)
  | .mem (.dp o1) => some (.ldyDp o1)
  | .mem (.absIdx .x a) => some (.ldyAbsX a)
  | .mem (.dpIdx .x o1) => some (.ldyDpX o1)
  | _ => none

/-- The forms of CPX (R234). -/
def cpxForm : Source → Option Instr
  | .imm k => some (.cpxImm k)
  | .mem (.abs a) => some (.cpxAbs a)
  | .mem (.dp o1) => some (.cpxDp o1)
  | _ => none

/-- The forms of CPY (R234). -/
def cpyForm : Source → Option Instr
  | .imm k => some (.cpyImm k)
  | .mem (.abs a) => some (.cpyAbs a)
  | .mem (.dp o1) => some (.cpyDp o1)
  | _ => none

/-- The forms of BIT with a memory operand (R192). -/
def bitForm : Mode → Option Instr
  | .abs a => some (.bitAbs a)
  | .dp o1 => some (.bitDp o1)
  | .absIdx .x a => some (.bitAbsX a)
  | .dpIdx .x o1 => some (.bitDpX o1)
  | _ => none

/-- The forms of STA (R271). -/
def staForm : Mode → Option Instr
  | .abs a => some (.staAbs a)
  | .long l => some (.staLong l)
  | .dp o1 => some (.staDp o1)
  | .dpInd o1 => some (.staDpInd o1)
  | .dpIndLong o1 => some (.staDpIndLong o1)
  | .absIdx .x a => some (.staAbsX a)
  | .longX l => some (.staLongX l)
  | .absIdx .y a => some (.staAbsY a)
  | .dpIdx .x o1 => some (.staDpX o1)
  | .dpXInd o1 => some (.staDpXInd o1)
  | .dpIndY o1 => some (.staDpIndY o1)
  | .dpIndLongY o1 => some (.staDpIndLongY o1)
  | .sr o1 => some (.staSr o1)
  | .srIndY o1 => some (.staSrIndY o1)
  | _ => none

/-- The forms of STX (R271). -/
def stxForm : Mode → Option Instr
  | .abs a => some (.stxAbs a)
  | .dp o1 => some (.stxDp o1)
  | .dpIdx .y o1 => some (.stxDpY o1)
  | _ => none

/-- The forms of STY (R271). -/
def styForm : Mode → Option Instr
  | .abs a => some (.styAbs a)
  | .dp o1 => some (.styDp o1)
  | .dpIdx .x o1 => some (.styDpX o1)
  | _ => none

/-- The forms of STZ (R271). -/
def stzForm : Mode → Option Instr
  | .abs a => some (.stzAbs a)
  | .dp o1 => some (.stzDp o1)
  | .absIdx .x a => some (.stzAbsX a)
  | .dpIdx .x o1 => some (.stzDpX o1)
  | _ => none

/-- The forms of TRB (R192). -/
def trbForm : Mode → Option Instr
  | .abs a => some (.trbAbs a)
  | .dp o1 => some (.trbDp o1)
  | _ => none

/-- The forms of TSB (R192). -/
def tsbForm : Mode → Option Instr
  | .abs a => some (.tsbAbs a)
  | .dp o1 => some (.tsbDp o1)
  | _ => none

/-- The forms of ASL (R192). -/
def aslForm : Place → Option Instr
  | .acc => some .aslA
  | .mem (.abs a) => some (.aslAbs a)
  | .mem (.dp o1) => some (.aslDp o1)
  | .mem (.absIdx .x a) => some (.aslAbsX a)
  | .mem (.dpIdx .x o1) => some (.aslDpX o1)
  | _ => none

/-- The forms of LSR (R192). -/
def lsrForm : Place → Option Instr
  | .acc => some .lsrA
  | .mem (.abs a) => some (.lsrAbs a)
  | .mem (.dp o1) => some (.lsrDp o1)
  | .mem (.absIdx .x a) => some (.lsrAbsX a)
  | .mem (.dpIdx .x o1) => some (.lsrDpX o1)
  | _ => none

/-- The forms of ROL (R192). -/
def rolForm : Place → Option Instr
  | .acc => some .rolA
  | .mem (.abs a) => some (.rolAbs a)
  | .mem (.dp o1) => some (.rolDp o1)
  | .mem (.absIdx .x a) => some (.rolAbsX a)
  | .mem (.dpIdx .x o1) => some (.rolDpX o1)
  | _ => none

/-- The forms of ROR (R192). -/
def rorForm : Place → Option Instr
  | .acc => some .rorA
  | .mem (.abs a) => some (.rorAbs a)
  | .mem (.dp o1) => some (.rorDp o1)
  | .mem (.absIdx .x a) => some (.rorAbsX a)
  | .mem (.dpIdx .x o1) => some (.rorDpX o1)
  | _ => none

/-- The forms of INC (R172). -/
def incForm : Place → Option Instr
  | .acc => some .incA
  | .mem (.abs a) => some (.incAbs a)
  | .mem (.dp o1) => some (.incDp o1)
  | .mem (.absIdx .x a) => some (.incAbsX a)
  | .mem (.dpIdx .x o1) => some (.incDpX o1)
  | _ => none

/-- The forms of DEC (R172). -/
def decForm : Place → Option Instr
  | .acc => some .decA
  | .mem (.abs a) => some (.decAbs a)
  | .mem (.dp o1) => some (.decDp o1)
  | .mem (.absIdx .x a) => some (.decAbsX a)
  | .mem (.dpIdx .x o1) => some (.decDpX o1)
  | _ => none

/-! ## How a result is said -/

/-- PC has moved past the instruction, by as many bytes as its encoding has (00_scope.md R13, 30_encoding.md R92). -/
def Advances (i : Instr) (s t : State) : Prop :=
  t.pc = s.pc + BitVec.ofNat 16 (encode s.wm s.wx i).length

/-- The number in the accumulator at width `w` (00_scope.md R10, `AccRead`). -/
def State.accNat (s : State) (w : Width) : Nat := s.c.toNat % modulus w

/-- The accumulator holds `r` after a write at width `w`: B is unchanged when the width is 8 (00_scope.md R10,
`AccWrite`). -/
def AccIs (s t : State) (w : Width) (r : Nat) : Prop :=
  t.c.toNat = match w with
    | .w8 => s.c.toNat / 256 * 256 + r
    | .w16 => r

/-- n and z tell of the number `r` at width `w` (00_scope.md R10, `SetNZ`). -/
def NZ (t : State) (w : Width) (r : Nat) : Prop :=
  t.flag .n = r.testBit (widthBits w - 1) ∧ t.flag .z = decide (r = 0)

/-- A datum `r` of width `w` has been written to the operand place `ea`: the low byte at its address and, at width 16,
the high byte at the successor (20_memory.md R61, R64). -/
def StoredAt (s t : State) (w : Width) (ea : Ea) (r : Nat) : Prop :=
  Stored s t ea.addr (BitVec.ofNat 8 r) ∧
    (w = .w16 → Stored s t (s.succ ea.addr ea.wrap) (BitVec.ofNat 8 (r / 256)))

/-- The little-endian number of the two bytes at `a` and `b`. -/
def State.pair (s : State) (a b : Addr) : Word := wordOf (s.cell a) (s.cell b)

/-! ## Read-modify-write instructions (41_arithmetic.md R164, R167; 42_binary.md R185 to R189) -/

/-- The six instructions with an accumulator form and memory forms. -/
inductive RmwOp where
  | asl | lsr | rol | ror | inc | dec
  deriving DecidableEq, Repr

/-- The forms of each. -/
def rmwForm : RmwOp → Place → Option Instr
  | .asl => aslForm
  | .lsr => lsrForm
  | .rol => rolForm
  | .ror => rorForm
  | .inc => incForm
  | .dec => decForm

/-- The result, from the operand `v` of width `w` and the carry before the instruction. -/
def rmwNat (op : RmwOp) (w : Width) (v : Nat) (c : Bool) : Nat :=
  match op with
  | .asl => v * 2 % modulus w
  | .lsr => v / 2
  | .rol => v * 2 % modulus w + c.toNat
  | .ror => v / 2 + c.toNat * (modulus w / 2)
  | .inc => (v + 1) % modulus w
  | .dec => (v + modulus w - 1) % modulus w

/-- The carry after it: the bit shifted out; INC and DEC keep the carry. -/
def rmwCarry (op : RmwOp) (w : Width) (v : Nat) (c : Bool) : Bool :=
  match op with
  | .asl => v.testBit (widthBits w - 1)
  | .rol => v.testBit (widthBits w - 1)
  | .lsr => v.testBit 0
  | .ror => v.testBit 0
  | .inc => c
  | .dec => c

/-- What the accumulator form does: the result to the accumulator, n, z and c, nothing else. -/
def RmwAccumulator (op : RmwOp) : Prop :=
  ∀ (s : State) (i : Instr), rmwForm op .acc = some i →
    let r := rmwNat op s.wm (s.accNat s.wm) (s.flag .c)
    ∃ t, exec i s = .next t ∧ AccIs s t s.wm r ∧ NZ t s.wm r ∧
      t.flag .c = rmwCarry op s.wm (s.accNat s.wm) (s.flag .c) ∧
      Frame [.c, .pc] [.n, .z, .c] [] s t ∧ Advances i s t

/-- What a memory form does: the result to the place the operand was read from, n, z and c, nothing else. -/
def RmwMemory (op : RmwOp) : Prop :=
  ∀ (s s1 s2 : State) (i : Instr) (md : Mode) (ea : Ea) (v : Word), rmwForm op (.mem md) = some i →
    effAddr md s = .ok ea s1 → load s.wm ea.addr ea.wrap s1 = .ok v s2 →
    let r := rmwNat op s.wm v.toNat (s.flag .c)
    ∃ t, exec i s = .next t ∧ StoredAt s t s.wm ea r ∧ NZ t s.wm r ∧
      t.flag .c = rmwCarry op s.wm v.toNat (s.flag .c) ∧
      Frame [.pc] [.n, .z, .c] (storedBytes s.wm ea.addr ea.wrap s) s t ∧ Advances i s t

/-! ## The stack, in numbers (45_stack.md R280 to R283) -/

/-- The address the `k`th next push stores at, counted from 0: `S - k`, inside page 1 in emulation mode. -/
def State.pushSlot (s : State) (k : Nat) : Addr :=
  addrOf 0 (BitVec.ofNat 16 (if s.emulation then 0x100 + (s.sp.toNat + 256 - k) % 256 else s.sp.toNat + 65536 - k))

/-- The address the `k`th next pull reads, counted from 1: `S + k`, inside page 1 in emulation mode. -/
def State.pullSlot (s : State) (k : Nat) : Addr :=
  addrOf 0 (BitVec.ofNat 16 (if s.emulation then 0x100 + (s.sp.toNat + k) % 256 else s.sp.toNat + k))

/-- `S` is where `n` pushes from `s` leave it. -/
def Pushed (n : Nat) (s t : State) : Prop :=
  t.sp = BitVec.ofNat 16 (if s.emulation then 0x100 + (s.sp.toNat + 256 - n) % 256 else s.sp.toNat + 65536 - n)

/-- `S` is where `n` pulls from `s` leave it. -/
def Pulled (n : Nat) (s t : State) : Prop :=
  t.sp = BitVec.ofNat 16 (if s.emulation then 0x100 + (s.sp.toNat + n) % 256 else s.sp.toNat + n)

/-- The bytes `bs`, in the order pushed, lie below where `S` pointed, and `S` has moved down past them; nothing else of
memory has changed. -/
def PushedBytes (bs : List Byte) (s t : State) : Prop :=
  (∀ k (h : k < bs.length), Stored s t (s.pushSlot k) bs[k]) ∧ Pushed bs.length s t ∧
    MemBut ((List.range bs.length).map s.pushSlot) s t

/-- No address of the next `n` pushes is a device's. -/
abbrev CanPush (n : Nat) (s : State) : Prop := ∀ k < n, NotDevice s (s.pushSlot k)

/-- The addresses of the next `n` pulls are RAM or ROM. -/
abbrev CanPull (n : Nat) (s : State) : Prop := ∀ k < n, Backed s (s.pullSlot (k + 1))

/-- The byte that the `k`th next pull gives, counted from 1. -/
def State.pulledByte (s : State) (k : Nat) : Byte := s.cell (s.pullSlot k)

/-- The number that the next pull of width `w` gives. -/
def State.pulledW (s : State) : Width → Nat
  | .w8 => (s.pulledByte 1).toNat
  | .w16 => (s.pulledByte 1).toNat + 256 * (s.pulledByte 2).toNat

/-! ## Interrupt entry, in numbers (60_exceptions.md R340 to R344) -/

/-- The vectors of R341: emulation mode and the 8-bit variants first, then native mode. -/
def vectorNat : IntKind → Bool → Nat
  | .cop, e => if e then 0xFFF4 else 0xFFE4
  | .brk, e => if e then 0xFFFE else 0xFFE6
  | .nmi, e => if e then 0xFFFA else 0xFFEA
  | .irq, e => if e then 0xFFFE else 0xFFEE

/-- The first address of the vector. -/
def State.vectorAddr (s : State) (k : IntKind) : Addr := BitVec.ofNat 24 (vectorNat k s.emulation)

/-- The byte pushed for P (R344). -/
def State.frameP (s : State) : IntKind → Byte
  | .brk => if s.emulation then s.p ||| 0x30 else s.p
  | .cop => if s.emulation then s.p ||| 0x30 else s.p
  | .irq => if s.emulation then (s.p ||| 0x20) &&& 0xEF else s.p
  | .nmi => if s.emulation then (s.p ||| 0x20) &&& 0xEF else s.p

/-- The bytes of the frame in the order pushed (R340). -/
def State.frameBytes (s : State) (k : IntKind) (ret : Word) : List Byte :=
  (if s.emulation then [] else [s.pbr]) ++ [highByte ret, lowByte ret, s.frameP k]

/-- Everything that entering the handler of `k` with return address `ret` does (R340, R341, R343, R344): the frame is
pushed, i set, d cleared but on V6502, PBR 0 on V65816, PC loaded from the vector (as memory stands after the pushes). -/
def Enters (k : IntKind) (ret : Word) (s t : State) : Prop :=
  PushedBytes (s.frameBytes k ret) s t ∧
    t.flag .i = true ∧ (s.cfg.variant ≠ .v6502 → t.flag .d = false) ∧ (s.cfg.variant = .v6502 → t.flag .d = s.flag .d) ∧
    (s.is816 = true → t.pbr = 0) ∧ (s.is816 = false → t.pbr = s.pbr) ∧
    t.pc = t.pair (s.vectorAddr k) (s.vectorAddr k + 1) ∧
    RegsBut [.sp, .pbr, .pc] s t ∧ FlagsBut [.i, .d] s t

/-- Entry is possible: the frame's addresses are no device's, and the vector is in RAM or ROM. -/
abbrev CanEnter (k : IntKind) (s : State) : Prop :=
  CanPush (if s.emulation then 3 else 4) s ∧ Backed s (s.vectorAddr k) ∧ Backed s (s.vectorAddr k + 1)

/-- The whole status register has been loaded from the pulled byte `v`, as PLP and RTI do (45_stack.md R289): in emulation
mode bits 5 and 4 read 1, in native mode x set clears the high bytes of X and Y. -/
def LoadsP (v : Byte) (s t : State) : Prop :=
  t.p = (if s.emulation then (v &&& 0xCF) ||| 0x30 else v) ∧
    t.x.toNat = (if s.emulation = false ∧ v.getLsbD 4 = true then s.x.toNat % 256 else s.x.toNat) ∧
    t.y.toNat = (if s.emulation = false ∧ v.getLsbD 4 = true then s.y.toNat % 256 else s.y.toNat)

/-! ## Addresses, in numbers (40_addressing_modes.md) -/

/-- `DBR`, 0 on the 8-bit variants (R120). -/
def State.bankNat (s : State) : Nat := if s.is816 then s.dbr.toNat else 0

/-- `D`, 0 on the 8-bit variants (R120). -/
def State.dNat (s : State) : Nat := if s.is816 then s.d.toNat else 0

/-- Does the direct page wrap as a page? The first two cases of R121. -/
abbrev State.PageCase (s : State) : Prop := s.is816 = false ∨ (s.e = true ∧ s.d.toNat % 256 = 0)

/-- `DPaddr(k)` (R121). -/
def State.dpNat (s : State) (k : Nat) : Nat :=
  if s.PageCase then s.dNat / 256 * 256 + k % 256 else (s.dNat + k) % 65536

/-- `DPnext(a)` (R121). -/
def State.dpNextNat (s : State) (a : Nat) : Nat :=
  if s.PageCase then a / 256 * 256 + (a + 1) % 256 else (a + 1) % 65536

/-- An index added to an address: 24 bits wide on V65816, 16 bits on the 8-bit variants (R132, R137). -/
def State.indexed (s : State) (a i : Nat) : Addr :=
  BitVec.ofNat 24 (if s.is816 then a + i else (a + i) % 65536)

/-! ## Repeating one instruction -/

/-- `n` executions of one instruction, as a block move repeats itself (47_miscellaneous.md R320). -/
def execRepeat (i : Instr) : Nat → State → Result
  | 0, s => .next s
  | n + 1, s =>
    match exec i s with
    | .next t => execRepeat i n t
    | .fault r => .fault r
    | .refused r => .refused r

/-- The source bank of a block move under `BLOCK_MOVE_OPERAND_ORDER` (R320). -/
def State.moveFrom (s : State) (o1 o2 : Byte) : Byte := if s.cfg.blockMoveOrder = .srcFirst then o1 else o2

/-- The destination bank of a block move. -/
def State.moveTo (s : State) (o1 o2 : Byte) : Byte := if s.cfg.blockMoveOrder = .srcFirst then o2 else o1

end Sys2Proof.Machine
end

