-- ==== Sys2Proof/Certificates/Slice0/Obligations.lean ====
section
/-! DEFINITION. The statements for the provers, one `Obligations.<Name>` each, in the order of OBLIGATIONS.json. -/

open Sys2Proof Sys2Proof.Machine

/-! ## Encoding (30_encoding.md) -/

/-- Decoding the bytes of a well-formed instruction gives it back and leaves the bytes that follow: at every variant, every
pair of widths, every operand value. -/
def Obligations.DecodeOfEncode : Prop :=
  ∀ (v : Variant) (wm wx : Width) (i : Instr) (rest : List Byte), i.wellFormed v wm wx = true →
    decode v wm wx (encode wm wx i ++ rest) = .ok i rest

/-- Whatever the decoder accepts is well formed, and is the encoding of what it answers followed by what it leaves. -/
def Obligations.EncodeOfDecode : Prop :=
  ∀ (v : Variant) (wm wx : Width) (bytes rest : List Byte) (i : Instr), decode v wm wx bytes = .ok i rest →
    i.wellFormed v wm wx = true ∧ encode wm wx i ++ rest = bytes

/-- On V65816 every byte value is an instruction, whatever follows it and whatever the widths (R94, R97). -/
def Obligations.EveryByteDecodesOnV65816 : Prop :=
  ∀ (wm wx : Width) (op o1 o2 o3 : Byte) (rest : List Byte),
    ∃ i left, decode .v65816 wm wx (op :: o1 :: o2 :: o3 :: rest) = .ok i left ∧ i.opcode = op

/-- The eight immediates of the accumulator are 3 bytes long when WM is 16 and 2 when it is 8, the four of the index
registers the same with WX, and the length of no other instruction depends on the widths (R92). -/
def Obligations.InstructionLengths : Prop :=
  ∀ (wm wx : Width) (i : Instr),
    (i.opcode ∈ [0x09, 0x29, 0x49, 0x69, 0x89, 0xA9, 0xC9, 0xE9] →
      (encode wm wx i).length = if wm = .w16 then 3 else 2) ∧
    (i.opcode ∈ [0xA0, 0xA2, 0xC0, 0xE0] → (encode wm wx i).length = if wx = .w16 then 3 else 2) ∧
    (i.opcode ∉ [0x09, 0x29, 0x49, 0x69, 0x89, 0xA9, 0xC9, 0xE9, 0xA0, 0xA2, 0xC0, 0xE0] →
      ∀ wm' wx', (encode wm' wx' i).length = (encode wm wx i).length)

/-- A few words written out from the spec's encodings decode to the instructions they stand for: R123, R124, R93, R223,
R225, R252, R320. -/
def Obligations.SampleWordsDecode : Prop :=
  decode .v6502 .w8 .w8 [0x0A] = .ok .aslA [] ∧
  decode .v6502 .w8 .w8 [0xA9, 0x12] = .ok (.ldaImm 0x12) [] ∧
  decode .v65816 .w16 .w8 [0xA9, 0x34, 0x12] = .ok (.ldaImm 0x1234) [] ∧
  decode .v65816 .w8 .w16 [0xA0, 0x34, 0x12] = .ok (.ldyImm 0x1234) [] ∧
  decode .v6502 .w8 .w8 [0x6D, 0x34, 0x12] = .ok (.adcAbs 0x1234) [] ∧
  decode .v65816 .w8 .w8 [0xAF, 0x34, 0x12, 0x7E] = .ok (.ldaLong 0x7E1234) [] ∧
  decode .v65816 .w8 .w8 [0x82, 0xFD, 0xFF] = .ok (.brl 0xFFFD) [] ∧
  decode .v65816 .w8 .w8 [0x5C, 0x00, 0x80, 0x02] = .ok (.jmpLong 0x028000) [] ∧
  decode .v65816 .w16 .w16 [0x54, 0x01, 0x02] = .ok (.mvn 0x01 0x02) [] ∧
  decode .v65816 .w16 .w16 [0xC2, 0x30] = .ok (.rep 0x30) []

/-! ## The step -/

/-- A step at which nothing comes first runs the instruction that the bytes at PBR:PC decode to, on the state whose input
has been taken. -/
def Obligations.StepRunsDecodedInstruction : Prop :=
  ∀ (s : State) (i : Instr) (n : Nat), s.quiet = true → (∀ k < n, Backed s (s.fetchAddr k)) →
    decode s.cfg.variant s.wm s.wx ((List.range n).map fun k => s.cell (s.fetchAddr k)) = .ok i [] →
    step s = exec i s.latchInput

/-- A step that fetches an opcode byte the variant does not have is refused by name (R97). -/
def Obligations.IllegalOpcodeIsRefused : Prop :=
  ∀ (s : State), s.quiet = true → Backed s (s.fetchAddr 0) →
    opcodeRow? s.cfg.variant (s.cell (s.fetchAddr 0)) = none →
    step s = .refused (.illegalOpcode (s.cell (s.fetchAddr 0)))

/-- The model's own interface (log 19): after `withFetchWord` the very next step from reset runs the instruction that
`decodeTableWord` reads from the same word. -/
def Obligations.PlacedWordRunsNext : Prop :=
  ∀ (nbits w : Nat) (i : Instr), decodeTableWord nbits w = some i →
    step (State.reset.withFetchWord nbits w) = exec i (State.reset.withFetchWord nbits w)

/-- Every step keeps the invariant of 10_state.md R40 and the canonical form of memory, from every state that has it. -/
def Obligations.StepKeepsInvariant : Prop :=
  ∀ (s t : State), s.inv = true → step s = .next t → t.inv = true

/-- The state after reset has the invariant, whatever the launch. -/
def Obligations.ResetHasInvariant : Prop := ∀ cfg : Config, (State.resetOn cfg).inv = true

/-- What the launch fixes is no state: no step changes it (10_state.md R45). -/
def Obligations.StepKeepsLaunch : Prop := ∀ (s t : State), step s = .next t → t.cfg = s.cfg

/-- No instruction can fault or be refused where no device stands: each of the 256 has a next state, for every state and
every operand (00_scope.md R12, 60_exceptions.md R342). -/
def Obligations.EveryInstructionCompletes : Prop :=
  ∀ (i : Instr) (s : State), NoDevice s.cfg → ∃ t, exec i s = .next t

/-- A step is refused only for an opcode the variant does not have (30_encoding.md R97), for an address that is a device's,
or for ABORT; it never faults. That these are the only reasons rests on choices of the model: an access to a device is
refused (log 14; R68 leaves a device to a parameter or a refusal), ABORT is refused (log 9; 93_implementation_defined.md
U12, not R349, says that a model should refuse), the overflow pin never is (log 10; U13 leaves a refusal open too). -/
def Obligations.StepRefusedOnlyBySpec : Prop :=
  ∀ (s : State),
    (∃ t, step s = .next t) ∨
    (∃ op, step s = .refused (.illegalOpcode op) ∧ opcodeRow? s.cfg.variant op = none) ∨
    (∃ a, step s = .refused (.deviceAccessSequence a) ∧ kindAt s.cfg a = .device) ∨
    (step s = .refused .abortAsserted ∧ s.nextInput.abort = true)

/-- Which instructions can change D, DBR, PBR, e and the run state (10_state.md R24 to R26, R41, R44). -/
def Obligations.SpecialRegisterWriters : Prop :=
  ∀ (i : Instr) (s t : State), exec i s = .next t →
    (t.d ≠ s.d → i.opcode ∈ [0x5B, 0x2B]) ∧
    (t.dbr ≠ s.dbr → i.opcode ∈ [0xAB, 0x54, 0x44]) ∧
    (t.pbr ≠ s.pbr → i.opcode ∈ [0x5C, 0xDC, 0x22, 0x6B, 0x40, 0x00, 0x02]) ∧
    (t.e ≠ s.e → i.opcode ∈ [0xFB]) ∧
    (t.run ≠ s.run → i.opcode ∈ [0xCB, 0xDB])

/-! ## Reset and the instruction boundary -/

/-- The values that 10_state.md R43 gives for reset, on every launch. The clause on PC is R43's where the reset vector is in
RAM or ROM; that PC is the listed byte pair, 0, also where the vector is unmapped or a device's is the model's choice
(log 31), and so are the bytes of the empty memory (log 3). -/
def Obligations.ResetValues : Prop :=
  ∀ cfg : Config, let s := State.resetOn cfg
    s.pc = s.pair 0x00FFFC 0x00FFFD ∧ s.pbr = 0 ∧ s.dbr = 0 ∧ s.d = 0 ∧ s.e = true ∧ s.flag .m = true ∧ s.flag .x = true ∧
      s.flag .i = true ∧ (cfg.variant ≠ .v6502 → s.flag .d = false) ∧ highByte s.sp = 0x01 ∧ highByte s.x = 0 ∧
      highByte s.y = 0 ∧ s.run = .running ∧ s.nmiPending = false

/-- RESET asserted at a boundary, in any run state: the values of R380, PC from the vector, nothing written to memory. -/
def Obligations.ResetEventValues : Prop :=
  ∀ s : State, s.nextInput.reset = true → Backed s 0x00FFFC → Backed s 0x00FFFD →
    ∃ t, step s = .next t ∧ t.run = .running ∧ t.nmiPending = false ∧ t.e = true ∧ t.flag .m = true ∧ t.flag .x = true ∧
      highByte t.x = 0 ∧ highByte t.y = 0 ∧ highByte t.sp = 0x01 ∧ t.d = 0 ∧ t.dbr = 0 ∧ t.pbr = 0 ∧ t.flag .i = true ∧
      (s.cfg.variant ≠ .v6502 → t.flag .d = false) ∧ t.pc = s.pair 0x00FFFC 0x00FFFD ∧ MemBut [] s t ∧ t.cfg = s.cfg

/-- What comes at a boundary while Running, in the order of R346 and R350: RESET, then NMI (latched or new), then IRQ if i
is 0, else the next instruction. ABORT and the overflow pin are not asserted (R349, R42). -/
def Obligations.BoundaryOrder : Prop :=
  ∀ s : State, s.run = .running → s.nextInput.abort = false → s.nextInput.overflowPin = false →
    step s =
      if s.nextInput.reset = true then resetEvent s.latchInput
      else if s.nmiPending = true ∨ s.nextInput.nmiEdge = true then
        enter .nmi s.pc { s.latchInput with nmiPending := false }
      else if s.nextInput.irqLine = true ∧ s.flag .i = false then enter .irq s.pc s.latchInput
      else executeNext s.latchInput

/-- The wake-up test while Waiting (R313) and what ends Stopped (R327): nothing but an interrupt or reset changes a
waiting processor, nothing but reset a stopped one. The model's choices in it: the overflow pin, asserted or not, has no
effect while Waiting and Stopped (log 10); an NMI edge is latched in every run state, Stopped included (log 27); with
nothing to wake it a step is a next state in which only the input has been taken (log 28). -/
def Obligations.WaitingAndStopped : Prop :=
  ∀ s : State, s.nextInput.reset = false → s.nextInput.abort = false →
    (s.run = .stopped → step s = .next s.latchInput) ∧
    (s.run = .waiting →
      step s =
        if s.nmiPending = true ∨ s.nextInput.nmiEdge = true then
          enter .nmi s.pc { s.latchInput with nmiPending := false, run := .running }
        else if s.nextInput.irqLine = true then
          if s.flag .i = true then .next { s.latchInput with run := .running }
          else enter .irq s.pc { s.latchInput with run := .running }
        else .next s.latchInput)

/-! ## Memory (20_memory.md) -/

/-- A byte access at an address of each kind (R68): RAM, ROM, Unmapped, Device. The model's choices in it: both accesses to
a device are refused by name (log 14; R68 leaves a device to a parameter or a refusal), and each read of an unmapped
address is a new draw of a free value, counted in `freeIndex` (log 6, log 25). -/
def Obligations.ByteAccessByKind : Prop :=
  ∀ (s : State) (a : Addr) (b : Byte),
    (kindAt s.cfg a = .ram → read8 a s = .ok (s.cell a) s ∧
      ∃ t, write8 a b s = .ok () t ∧ t.cell a = b ∧ MemBut [a] s t ∧ RegsBut [] s t ∧ t.p = s.p ∧ read8 a t = .ok b t) ∧
    (kindAt s.cfg a = .rom → read8 a s = .ok (s.cell a) s ∧ write8 a b s = .ok () s) ∧
    (kindAt s.cfg a = .unmapped → write8 a b s = .ok () s ∧
      ∃ x, read8 a s = .ok x { s with freeIndex := s.freeIndex + 1 }) ∧
    (kindAt s.cfg a = .device →
      read8 a s = .stop (.deviceAccessSequence a) ∧ write8 a b s = .stop (.deviceAccessSequence a))

/-- The bytes of a multi-byte read and their order, with the three successors of R64. -/
def Obligations.MultiByteReads : Prop :=
  ∀ (s : State) (a : Addr),
    (s.succ a .lin).toNat = (if s.is816 then (a.toNat + 1) % 2 ^ 24 else a.toNat / 65536 * 65536 + (a.toNat + 1) % 65536) ∧
    (s.succ a .bank).toNat = a.toNat / 65536 * 65536 + (a.toNat + 1) % 65536 ∧
    (s.succ a .page).toNat = a.toNat / 256 * 256 + (a.toNat + 1) % 256 ∧
    ∀ wrap : Wrap, Backed s a → Backed s (s.succ a wrap) →
      read16 a wrap s = .ok (s.pair a (s.succ a wrap)) s ∧
      (s.pair a (s.succ a wrap)).toNat = (s.cell a).toNat + 256 * (s.cell (s.succ a wrap)).toNat ∧
      (Backed s (s.succ (s.succ a wrap) wrap) →
        read24 a wrap s =
          .ok (addrOf (s.cell (s.succ (s.succ a wrap) wrap)) (s.pair a (s.succ a wrap))) s)

/-- A load of what a store has put into RAM gives it back, at either width, whichever successor the mode takes; the store
changes the stored bytes only. -/
def Obligations.LoadAfterStore : Prop :=
  ∀ (s : State) (w : Width) (a : Addr) (wrap : Wrap) (v : Word),
    (∀ b ∈ storedBytes w a wrap s, kindAt s.cfg b = .ram) →
    ∃ t, store w a wrap v s = .ok () t ∧ load w a wrap t = .ok (trunc w v) t ∧
      Frame [] [] (storedBytes w a wrap s) s t

/-- Reading an operand changes nothing: no register, no flag, no byte of memory (only how many free values have been
drawn). -/
def Obligations.OperandReadsChangeNothing : Prop :=
  ∀ (s t : State) (src : Source) (w : Width) (m : Word), operand src w s = .ok m t →
    t = { s with freeIndex := t.freeIndex } ∧ m.toNat < modulus w

/-! ## Addressing modes (40_addressing_modes.md) -/

/-- The direct-page address function and the successor of a pointer byte, in the three cases of R121. -/
def Obligations.DirectPageAddress : Prop :=
  ∀ (s : State) (k : Word),
    s.dpAddr k = BitVec.ofNat 24
      (if s.is816 = false then k.toNat % 256
       else if s.e = true ∧ s.d.toNat % 256 = 0 then s.d.toNat / 256 * 256 + k.toNat % 256
       else (s.d.toNat + k.toNat) % 65536) ∧
    (s.succ (s.dpAddr k) s.dpNext).toNat =
      if s.is816 = false ∨ (s.e = true ∧ s.d.toNat % 256 = 0) then
        (s.dpAddr k).toNat / 256 * 256 + ((s.dpAddr k).toNat + 1) % 256
      else ((s.dpAddr k).toNat + 1) % 65536

/-- The effective addresses of the modes that read no pointer: `dp`, `dp,X`, `dp,Y`, `addr`, `addr,X`, `addr,Y`, `long`,
`long,X`, `sr,S`, with the successor of each (R125 to R127, R136 to R141). -/
def Obligations.DirectEffectiveAddresses : Prop :=
  ∀ (s : State) (r : IdxReg) (o1 : Byte) (a : Word) (l : Addr),
    effAddr (.dp o1) s = .ok ⟨BitVec.ofNat 24 (s.dpNat o1.toNat), .bank⟩ s ∧
    effAddr (.dpIdx r o1) s = .ok ⟨BitVec.ofNat 24 (s.dpNat (o1.toNat + (s.idx r).toNat)), .bank⟩ s ∧
    effAddr (.abs a) s = .ok ⟨BitVec.ofNat 24 (s.bankNat * 65536 + a.toNat), .lin⟩ s ∧
    effAddr (.absIdx r a) s = .ok ⟨s.indexed (s.bankNat * 65536 + a.toNat) (s.idx r).toNat, .lin⟩ s ∧
    effAddr (.long l) s = .ok ⟨l, .lin⟩ s ∧
    (s.is816 = true → effAddr (.longX l) s = .ok ⟨BitVec.ofNat 24 (l.toNat + s.x.toNat), .lin⟩ s) ∧
    effAddr (.sr o1) s = .ok ⟨BitVec.ofNat 24 ((s.sp.toNat + o1.toNat) % 65536), .bank⟩ s

/-- The effective addresses of the modes that read a pointer: `(dp)`, `(dp,X)`, `(dp),Y`, `[dp]`, `[dp],Y`, `(sr,S),Y`, the
pointer being in RAM or ROM (R130 to R134, R142). -/
def Obligations.IndirectEffectiveAddresses : Prop :=
  ∀ (s : State) (o1 : Byte),
    (∀ p0 p1 : Nat, p0 = s.dpNat o1.toNat → p1 = s.dpNextNat p0 →
      let a0 : Addr := BitVec.ofNat 24 p0
      let a1 : Addr := BitVec.ofNat 24 p1
      Backed s a0 → Backed s a1 →
      effAddr (.dpInd o1) s = .ok ⟨BitVec.ofNat 24 (s.bankNat * 65536 + (s.pair a0 a1).toNat), .lin⟩ s ∧
      effAddr (.dpIndY o1) s = .ok ⟨s.indexed (s.bankNat * 65536 + (s.pair a0 a1).toNat) s.y.toNat, .lin⟩ s) ∧
    (∀ p0 p1 : Nat, p0 = s.dpNat (o1.toNat + s.x.toNat) → p1 = s.dpNextNat p0 →
      let a0 : Addr := BitVec.ofNat 24 p0
      let a1 : Addr := BitVec.ofNat 24 p1
      Backed s a0 → Backed s a1 →
      effAddr (.dpXInd o1) s = .ok ⟨BitVec.ofNat 24 (s.bankNat * 65536 + (s.pair a0 a1).toNat), .lin⟩ s) ∧
    (s.is816 = true →
      let a0 : Addr := BitVec.ofNat 24 ((s.d.toNat + o1.toNat) % 65536)
      let a1 : Addr := BitVec.ofNat 24 ((s.d.toNat + o1.toNat + 1) % 65536)
      let a2 : Addr := BitVec.ofNat 24 ((s.d.toNat + o1.toNat + 2) % 65536)
      Backed s a0 → Backed s a1 → Backed s a2 →
      effAddr (.dpIndLong o1) s = .ok ⟨addrOf (s.cell a2) (s.pair a0 a1), .lin⟩ s ∧
      effAddr (.dpIndLongY o1) s =
        .ok ⟨BitVec.ofNat 24 ((addrOf (s.cell a2) (s.pair a0 a1)).toNat + s.y.toNat), .lin⟩ s) ∧
    (s.is816 = true →
      let a0 : Addr := BitVec.ofNat 24 ((s.sp.toNat + o1.toNat) % 65536)
      let a1 : Addr := BitVec.ofNat 24 ((s.sp.toNat + o1.toNat + 1) % 65536)
      Backed s a0 → Backed s a1 →
      effAddr (.srIndY o1) s =
        .ok ⟨BitVec.ofNat 24 (s.dbr.toNat * 65536 + (s.pair a0 a1).toNat + s.y.toNat), .lin⟩ s)

/-! ## Arithmetic (41_arithmetic.md) -/

/-- ADC in binary mode, all fifteen forms: the sum, the carry, the overflow, n and z, and nothing else (R162). -/
def Obligations.AdcBinary : Prop :=
  ∀ (s s1 : State) (src : Source) (i : Instr) (m : Word), adcForm src = some i → s.flag .d = false →
    operand src s.wm s = .ok m s1 →
    let top := widthBits s.wm - 1
    let a := s.accNat s.wm
    let sum := a + m.toNat + (s.flag .c).toNat
    let r := sum % modulus s.wm
    ∃ t, exec i s = .next t ∧ AccIs s t s.wm r ∧ t.flag .c = decide (modulus s.wm ≤ sum) ∧
      t.flag .v = (a.testBit top == m.toNat.testBit top && r.testBit top != a.testBit top) ∧ NZ t s.wm r ∧
      Frame [.c, .pc] [.n, .v, .z, .c] [] s t ∧ Advances i s t

/-- SBC in binary mode, all fifteen forms (R170). -/
def Obligations.SbcBinary : Prop :=
  ∀ (s s1 : State) (src : Source) (i : Instr) (m : Word), sbcForm src = some i → s.flag .d = false →
    operand src s.wm s = .ok m s1 →
    let top := widthBits s.wm - 1
    let a := s.accNat s.wm
    let diff : Int := (a : Int) - m.toNat - (1 - ((s.flag .c).toNat : Int))
    let r := (diff % (modulus s.wm : Int)).toNat
    ∃ t, exec i s = .next t ∧ AccIs s t s.wm r ∧ t.flag .c = decide (0 ≤ diff) ∧
      t.flag .v = (a.testBit top != m.toNat.testBit top && r.testBit top != a.testBit top) ∧ NZ t s.wm r ∧
      Frame [.c, .pc] [.n, .v, .z, .c] [] s t ∧ Advances i s t

/-- The v of ADC and SBC is signed overflow: the true sum or difference of the operands read as two's-complement numbers
lies outside -2^(w-1) .. 2^(w-1) - 1 (R162, R170). -/
def Obligations.OverflowIsSigned : Prop :=
  ∀ (w : Width) (a m : Word) (c : Bool), a.toNat < modulus w → m.toNat < modulus w →
    let half : Int := (modulus w / 2 : Nat)
    let signed (v : Word) : Int := if (v.toNat : Int) < half then v.toNat else (v.toNat : Int) - 2 * half
    let sum : Int := signed a + signed m + (c.toNat : Int)
    let diff : Int := signed a - signed m - (1 - (c.toNat : Int))
    addOverflow w a m c = decide (sum < -half ∨ half ≤ sum) ∧ subOverflow w a m c = decide (diff < -half ∨ half ≤ diff)

/-- ADC in decimal mode, all fifteen forms (R163). Of valid BCD operands: the decimal sum and the carry, n and z but on
V6502. Of others: whatever the accumulator and n, v, z, c become, the rest is unchanged. -/
def Obligations.AdcDecimal : Prop :=
  ∀ (s s1 : State) (src : Source) (i : Instr) (m : Word), adcForm src = some i → s.flag .d = true →
    operand src s.wm s = .ok m s1 →
    let k := widthBits s.wm / 4
    let a := s.accNat s.wm
    let sum := bcdVal k a + bcdVal k m.toNat + (s.flag .c).toNat
    let r := bcdOf k (sum % 10 ^ k)
    ∃ t, exec i s = .next t ∧ Frame [.c, .pc] [.n, .v, .z, .c] [] s t ∧ Advances i s t ∧
      (∃ free < modulus s.wm, AccIs s t s.wm free) ∧
      (bcdValid k a = true → bcdValid k m.toNat = true →
        AccIs s t s.wm r ∧ t.flag .c = decide (10 ^ k ≤ sum) ∧ (s.cfg.variant ≠ .v6502 → NZ t s.wm r))

/-- SBC in decimal mode, all fifteen forms (R171). -/
def Obligations.SbcDecimal : Prop :=
  ∀ (s s1 : State) (src : Source) (i : Instr) (m : Word), sbcForm src = some i → s.flag .d = true →
    operand src s.wm s = .ok m s1 →
    let k := widthBits s.wm / 4
    let a := s.accNat s.wm
    let diff : Int := (bcdVal k a : Int) - bcdVal k m.toNat - (1 - ((s.flag .c).toNat : Int))
    let r := bcdOf k (diff % (10 ^ k : Nat)).toNat
    ∃ t, exec i s = .next t ∧ Frame [.c, .pc] [.n, .v, .z, .c] [] s t ∧ Advances i s t ∧
      (∃ free < modulus s.wm, AccIs s t s.wm free) ∧
      (bcdValid k a = true → bcdValid k m.toNat = true →
        AccIs s t s.wm r ∧ t.flag .c = decide (0 ≤ diff) ∧ (s.cfg.variant ≠ .v6502 → NZ t s.wm r))

/-- The digits of Binary Coded Decimal (R161): writing a number in `k` digits gives valid BCD that denotes it, and valid
BCD of `k` digits is how its number is written. -/
def Obligations.BcdDigits : Prop :=
  (∀ k n, n < 10 ^ k → bcdValid k (bcdOf k n) = true ∧ bcdVal k (bcdOf k n) = n ∧ bcdOf k n < 16 ^ k) ∧
  (∀ k v, v < 16 ^ k → bcdValid k v = true → bcdOf k (bcdVal k v) = v ∧ bcdVal k v < 10 ^ k)

/-- INC and DEC, accumulator and memory forms: always binary, c and v untouched (R164, R167). -/
def Obligations.IncrementDecrement : Prop :=
  ∀ op ∈ [RmwOp.inc, RmwOp.dec], RmwAccumulator op ∧ RmwMemory op

/-- INX, INY, DEX and DEY, at the width of the index registers (R165, R166, R168, R169). -/
def Obligations.IncrementDecrementIndex : Prop :=
  ∀ s : State,
    (∃ t, exec .inx s = .next t ∧ t.x.toNat = (s.x.toNat + 1) % modulus s.wx ∧ NZ t s.wx t.x.toNat ∧
      Frame [.x, .pc] [.n, .z] [] s t ∧ Advances .inx s t) ∧
    (∃ t, exec .iny s = .next t ∧ t.y.toNat = (s.y.toNat + 1) % modulus s.wx ∧ NZ t s.wx t.y.toNat ∧
      Frame [.y, .pc] [.n, .z] [] s t ∧ Advances .iny s t) ∧
    (∃ t, exec .dex s = .next t ∧ t.x.toNat = (s.x.toNat + 65535) % modulus s.wx ∧ NZ t s.wx t.x.toNat ∧
      Frame [.x, .pc] [.n, .z] [] s t ∧ Advances .dex s t) ∧
    (∃ t, exec .dey s = .next t ∧ t.y.toNat = (s.y.toNat + 65535) % modulus s.wx ∧ NZ t s.wx t.y.toNat ∧
      Frame [.y, .pc] [.n, .z] [] s t ∧ Advances .dey s t)

/-! ## Binary operations (42_binary.md) -/

/-- AND, EOR and ORA, all fifteen forms of each (R181, R183, R184). -/
def Obligations.LogicalOperations : Prop :=
  ∀ (s s1 : State) (src : Source) (i : Instr) (m : Word) (r : Nat), operand src s.wm s = .ok m s1 →
    (andForm src = some i ∧ r = s.accNat s.wm &&& m.toNat) ∨ (eorForm src = some i ∧ r = s.accNat s.wm ^^^ m.toNat) ∨
      (oraForm src = some i ∧ r = s.accNat s.wm ||| m.toNat) →
    ∃ t, exec i s = .next t ∧ AccIs s t s.wm r ∧ NZ t s.wm r ∧ Frame [.c, .pc] [.n, .z] [] s t ∧ Advances i s t

/-- BIT: of a memory operand n and v are its two top bits and z the test; of an immediate operand z alone is written; no
register changes (R182). -/
def Obligations.BitTest : Prop :=
  ∀ (s s1 : State) (m : Word),
    (∀ (md : Mode) (i : Instr), bitForm md = some i → operand (.mem md) s.wm s = .ok m s1 →
      ∃ t, exec i s = .next t ∧ t.flag .n = m.toNat.testBit (widthBits s.wm - 1) ∧
        t.flag .v = m.toNat.testBit (widthBits s.wm - 2) ∧ t.flag .z = decide (s.accNat s.wm &&& m.toNat = 0) ∧
        Frame [.pc] [.n, .v, .z] [] s t ∧ Advances i s t) ∧
    (∀ k : Word, operand (.imm k) s.wm s = .ok m s1 →
      ∃ t, exec (.bitImm k) s = .next t ∧ t.flag .z = decide (s.accNat s.wm &&& m.toNat = 0) ∧
        Frame [.pc] [.z] [] s t ∧ Advances (.bitImm k) s t)

/-- ASL, LSR, ROL and ROR, accumulator and memory forms: the result, the bit shifted out to c, n and z; v untouched
(R186 to R189). -/
def Obligations.ShiftsAndRotates : Prop :=
  ∀ op ∈ [RmwOp.asl, RmwOp.lsr, RmwOp.rol, RmwOp.ror], RmwAccumulator op ∧ RmwMemory op

/-- TRB and TSB: the bits of the accumulator cleared or set in memory, z from the value read (R190, R191). -/
def Obligations.TestAndModify : Prop :=
  ∀ (s s1 s2 : State) (md : Mode) (i : Instr) (ea : Ea) (m : Word) (r : Nat),
    effAddr md s = .ok ea s1 → load s.wm ea.addr ea.wrap s1 = .ok m s2 →
    (trbForm md = some i ∧ r = m.toNat &&& (modulus s.wm - 1 - s.accNat s.wm)) ∨
      (tsbForm md = some i ∧ r = m.toNat ||| s.accNat s.wm) →
    ∃ t, exec i s = .next t ∧ StoredAt s t s.wm ea r ∧ t.flag .z = decide (s.accNat s.wm &&& m.toNat = 0) ∧
      Frame [.pc] [.z] (storedBytes s.wm ea.addr ea.wrap s) s t ∧ Advances i s t

/-! ## Program flow (43_program_flow.md) -/

/-- The seven one-byte flag instructions: one flag written, nothing else (R201 to R207). -/
def Obligations.FlagInstructions : Prop :=
  ∀ (s : State), ∀ e ∈ [(Instr.clc, Flag.c, false), (.cld, .d, false), (.cli, .i, false), (.clv, .v, false),
      (.sec, .c, true), (.sed, .d, true), (.sei, .i, true)],
    ∃ t, exec e.1 s = .next t ∧ t.flag e.2.1 = e.2.2 ∧ Frame [.pc] [e.2.1] [] s t ∧ Advances e.1 s t

/-- REP clears and SEP sets the flags their constant names, bits 5 and 4 excepted in emulation mode; in native mode SEP of
x clears the high bytes of X and Y (R208, R209). -/
def Obligations.RepAndSep : Prop :=
  ∀ (s : State) (k : Byte),
    let named (f : Flag) : Bool := k.getLsbD f.bit && !(s.emulation && (f == .m || f == .x))
    (∃ t, exec (.rep k) s = .next t ∧ (∀ f, t.flag f = (s.flag f && !named f)) ∧
      RegsBut [.pc] s t ∧ MemBut [] s t ∧ Advances (.rep k) s t) ∧
    (∃ t, exec (.sep k) s = .next t ∧ (∀ f, t.flag f = (s.flag f || named f)) ∧
      t.x.toNat = (if named .x then s.x.toNat % 256 else s.x.toNat) ∧
      t.y.toNat = (if named .x then s.y.toNat % 256 else s.y.toNat) ∧
      RegsBut [.x, .y, .pc] s t ∧ MemBut [] s t ∧ Advances (.sep k) s t)

/-- CMP, CPX and CPY, every form: n, z and c of the difference; v, d, the carry in and the register play or take no
further part (R210 to R212). -/
def Obligations.Compares : Prop :=
  ∀ (s s1 : State) (src : Source) (i : Instr) (m : Word) (w : Width) (reg : Nat),
    (cmpForm src = some i ∧ w = s.wm ∧ reg = s.accNat w) ∨ (cpxForm src = some i ∧ w = s.wx ∧ reg = s.x.toNat % modulus w) ∨
      (cpyForm src = some i ∧ w = s.wx ∧ reg = s.y.toNat % modulus w) →
    operand src w s = .ok m s1 →
    ∃ t, exec i s = .next t ∧ t.flag .c = decide (m.toNat ≤ reg) ∧
      NZ t w ((reg + modulus w - m.toNat) % modulus w) ∧ Frame [.pc] [.n, .z, .c] [] s t ∧ Advances i s t

/-- The nine short branches: taken or not by one flag, the displacement signed and counted from the next instruction, PBR
and everything else unchanged (R213 to R222). -/
def Obligations.Branches : Prop :=
  ∀ (s : State) (rel : Byte),
    ∀ e ∈ [(Instr.bcc rel, !s.flag .c), (.bcs rel, s.flag .c), (.beq rel, s.flag .z), (.bne rel, !s.flag .z),
      (.bmi rel, s.flag .n), (.bpl rel, !s.flag .n), (.bvc rel, !s.flag .v), (.bvs rel, s.flag .v), (.bra rel, true)],
    ∃ t, exec e.1 s = .next t ∧
      (t.pc.toNat : Int) = ((s.pc.toNat : Int) + 2 + (if e.2 then rel.toInt else 0)) % 65536 ∧ Frame [.pc] [] [] s t

/-- BRL, JMP addr and JMP long: PC, and PBR for the last alone (R223 to R225). -/
def Obligations.DirectJumps : Prop :=
  ∀ (s : State) (a rel : Word) (l : Addr),
    (∃ t, exec (.brl rel) s = .next t ∧ t.pc.toNat = (s.pc.toNat + 3 + rel.toNat) % 65536 ∧ Frame [.pc] [] [] s t) ∧
    (∃ t, exec (.jmpAbs a) s = .next t ∧ t.pc = a ∧ Frame [.pc] [] [] s t) ∧
    (∃ t, exec (.jmpLong l) s = .next t ∧ t.pc.toNat = l.toNat % 65536 ∧ t.pbr.toNat = l.toNat / 65536 ∧
      Frame [.pc, .pbr] [] [] s t)

/-- JMP (addr), JMP (addr,X) and JMP [addr]: where the pointer lies, how it wraps, and what is loaded from it; on V6502
the pointer of JMP (addr) stays in its page (R226 to R228). -/
def Obligations.IndirectJumps : Prop :=
  ∀ (s : State) (a : Word),
    (let p0 : Addr := BitVec.ofNat 24 a.toNat
     let p1 : Addr := BitVec.ofNat 24
       (if s.cfg.variant = .v6502 then a.toNat / 256 * 256 + (a.toNat + 1) % 256 else (a.toNat + 1) % 65536)
     Backed s p0 → Backed s p1 → ∃ t, exec (.jmpAbsInd a) s = .next t ∧ t.pc = s.pair p0 p1 ∧ Frame [.pc] [] [] s t) ∧
    (let p0 : Addr := addrOf s.progBank (a + s.x)
     let p1 : Addr := addrOf s.progBank (a + s.x + 1)
     Backed s p0 → Backed s p1 → ∃ t, exec (.jmpAbsXInd a) s = .next t ∧ t.pc = s.pair p0 p1 ∧ Frame [.pc] [] [] s t) ∧
    (let p0 : Addr := BitVec.ofNat 24 a.toNat
     let p1 : Addr := BitVec.ofNat 24 ((a.toNat + 1) % 65536)
     let p2 : Addr := BitVec.ofNat 24 ((a.toNat + 2) % 65536)
     Backed s p0 → Backed s p1 → Backed s p2 →
      ∃ t, exec (.jmpAbsIndLong a) s = .next t ∧ t.pc = s.pair p0 p1 ∧ t.pbr = s.cell p2 ∧ Frame [.pc, .pbr] [] [] s t)

/-- JSR addr, JSR (addr,X) and JSL: the return address pushed (that of the instruction's last byte), then the jump
(R229 to R231). The return address of JSR (addr,X) is an inference that the spec marks: "the return address follows rule
R229 [derived: from rule R229 and rule R232 ...]" (R230). -/
def Obligations.Calls : Prop :=
  ∀ (s : State), s.emulationForced = true →
    (∀ a : Word, CanPush 2 s →
      ∃ t, exec (.jsrAbs a) s = .next t ∧ PushedBytes [highByte (s.pc + 2), lowByte (s.pc + 2)] s t ∧ t.pc = a ∧
        RegsBut [.sp, .pc] s t ∧ FlagsBut [] s t) ∧
    (∀ a : Word, CanPush 2 s →
      let p0 : Addr := addrOf s.progBank (a + s.x)
      let p1 : Addr := addrOf s.progBank (a + s.x + 1)
      Backed s p0 → Backed s p1 →
      ∃ t, exec (.jsrAbsXInd a) s = .next t ∧ PushedBytes [highByte (s.pc + 2), lowByte (s.pc + 2)] s t ∧
        t.pc = t.pair p0 p1 ∧ RegsBut [.sp, .pc] s t ∧ FlagsBut [] s t) ∧
    (∀ l : Addr, CanPush 3 s →
      ∃ t, exec (.jsl l) s = .next t ∧ PushedBytes [s.pbr, highByte (s.pc + 3), lowByte (s.pc + 3)] s t ∧
        t.pc.toNat = l.toNat % 65536 ∧ t.pbr.toNat = l.toNat / 65536 ∧ RegsBut [.sp, .pbr, .pc] s t ∧ FlagsBut [] s t)

/-- RTS and RTL: the address pulled, plus one, and for RTL the bank after it (R232, R233). -/
def Obligations.Returns : Prop :=
  ∀ (s : State),
    (CanPull 2 s →
      ∃ t, exec .rts s = .next t ∧ t.pc = wordOf (s.pulledByte 1) (s.pulledByte 2) + 1 ∧ Pulled 2 s t ∧
        Frame [.sp, .pc] [] [] s t) ∧
    (CanPull 3 s →
      ∃ t, exec .rtl s = .next t ∧ t.pc = wordOf (s.pulledByte 1) (s.pulledByte 2) + 1 ∧ t.pbr = s.pulledByte 3 ∧
        Pulled 3 s t ∧ Frame [.sp, .pc, .pbr] [] [] s t)

/-- A return undoes the call it is paired with: RTS after JSR and RTL after JSL come back to the instruction after the call,
with the stack pointer and the program bank as before, on a stack in RAM. -/
def Obligations.ReturnUndoesCall : Prop :=
  ∀ (s : State), s.emulationForced = true →
    (∀ a : Word, (∀ k < 2, kindAt s.cfg (s.pushSlot k) = .ram) →
      ∃ t u, exec (.jsrAbs a) s = .next t ∧ exec .rts t = .next u ∧ u.pc = s.pc + 3 ∧ u.sp = s.sp ∧ u.pbr = s.pbr) ∧
    (∀ l : Addr, (∀ k < 3, kindAt s.cfg (s.pushSlot k) = .ram) →
      ∃ t u, exec (.jsl l) s = .next t ∧ exec .rtl t = .next u ∧ u.pc = s.pc + 4 ∧ u.sp = s.sp ∧ u.pbr = s.pbr)

/-! ## Register operations (44_registers.md) -/

/-- LDA, LDX and LDY, every form, at the width of the register loaded (R250 to R252). -/
def Obligations.Loads : Prop :=
  ∀ (s s1 : State) (src : Source) (i : Instr) (m : Word),
    (ldaForm src = some i → operand src s.wm s = .ok m s1 →
      ∃ t, exec i s = .next t ∧ AccIs s t s.wm m.toNat ∧ NZ t s.wm m.toNat ∧ Frame [.c, .pc] [.n, .z] [] s t ∧
        Advances i s t) ∧
    (ldxForm s.cfg.ldxIndex src = some i → operand src s.wx s = .ok m s1 →
      ∃ t, exec i s = .next t ∧ t.x = m ∧ NZ t s.wx m.toNat ∧ Frame [.x, .pc] [.n, .z] [] s t ∧ Advances i s t) ∧
    (ldyForm src = some i → operand src s.wx s = .ok m s1 →
      ∃ t, exec i s = .next t ∧ t.y = m ∧ NZ t s.wx m.toNat ∧ Frame [.y, .pc] [.n, .z] [] s t ∧ Advances i s t)

/-- STA, STX, STY and STZ, every form: the register, or zero, to the effective address at its width; no flag and no
register changes (R253 to R256). -/
def Obligations.Stores : Prop :=
  ∀ (s s1 : State) (md : Mode) (i : Instr) (ea : Ea) (w : Width) (v : Nat),
    (staForm md = some i ∧ w = s.wm ∧ v = s.accNat w) ∨ (stxForm md = some i ∧ w = s.wx ∧ v = s.x.toNat % modulus w) ∨
      (styForm md = some i ∧ w = s.wx ∧ v = s.y.toNat % modulus w) ∨ (stzForm md = some i ∧ w = s.wm ∧ v = 0) →
    effAddr md s = .ok ea s1 → (∀ a ∈ storedBytes w ea.addr ea.wrap s, NotDevice s a) →
    ∃ t, exec i s = .next t ∧ StoredAt s t w ea v ∧ Frame [.pc] [] (storedBytes w ea.addr ea.wrap s) s t ∧ Advances i s t

/-- TAX, TAY, TSX, TXY and TYX at WX, TXA and TYA at WM: the value, n and z at the width of the destination (R258, R259,
R264, R265, R267 to R269). -/
def Obligations.TransfersAtWidth : Prop :=
  ∀ s : State,
    (∀ e ∈ [(Instr.tax, s.c), (.tsx, s.sp), (.tyx, s.y)],
      ∃ t, exec e.1 s = .next t ∧ t.x.toNat = e.2.toNat % modulus s.wx ∧ NZ t s.wx t.x.toNat ∧
        Frame [.x, .pc] [.n, .z] [] s t ∧ Advances e.1 s t) ∧
    (∀ e ∈ [(Instr.tay, s.c), (.txy, s.x)],
      ∃ t, exec e.1 s = .next t ∧ t.y.toNat = e.2.toNat % modulus s.wx ∧ NZ t s.wx t.y.toNat ∧
        Frame [.y, .pc] [.n, .z] [] s t ∧ Advances e.1 s t) ∧
    (∀ e ∈ [(Instr.txa, s.x), (.tya, s.y)],
      ∃ t, exec e.1 s = .next t ∧ AccIs s t s.wm (e.2.toNat % modulus s.wm) ∧ NZ t s.wm (e.2.toNat % modulus s.wm) ∧
        Frame [.c, .pc] [.n, .z] [] s t ∧ Advances e.1 s t)

/-- TCD, TDC and TSC move 16 bits whatever m is, with n and z at 16 bits; TCS and TXS load the stack pointer, its high byte
held at 0x01 in emulation mode and on the 8-bit variants, and no flag; XBA exchanges the halves of C with n and z of the new
A (R260 to R263, R266, R270). -/
def Obligations.TransfersOfSixteenBits : Prop :=
  ∀ s : State,
    (∃ t, exec .tcd s = .next t ∧ t.d = s.c ∧ NZ t .w16 s.c.toNat ∧ Frame [.d, .pc] [.n, .z] [] s t ∧ Advances .tcd s t) ∧
    (∃ t, exec .tdc s = .next t ∧ t.c = s.d ∧ NZ t .w16 s.d.toNat ∧ Frame [.c, .pc] [.n, .z] [] s t ∧ Advances .tdc s t) ∧
    (∃ t, exec .tsc s = .next t ∧ t.c = s.sp ∧ NZ t .w16 s.sp.toNat ∧ Frame [.c, .pc] [.n, .z] [] s t ∧
      Advances .tsc s t) ∧
    (∃ t, exec .xba s = .next t ∧ t.c.toNat = s.c.toNat % 256 * 256 + s.c.toNat / 256 ∧ NZ t .w8 (t.c.toNat % 256) ∧
      Frame [.c, .pc] [.n, .z] [] s t ∧ Advances .xba s t) ∧
    (∀ e ∈ [(Instr.tcs, s.c), (.txs, s.x)],
      ∃ t, exec e.1 s = .next t ∧ t.sp.toNat = (if s.emulation then 0x100 + e.2.toNat % 256 else e.2.toNat) ∧
        Frame [.sp, .pc] [] [] s t ∧ Advances e.1 s t)

/-! ## Stack operations (45_stack.md) -/

/-- PLA, PLX, PLY, PLB and PLD: the number pulled to the register, n and z at its width, S moved up past it; PLP: the whole
status register (R285 to R287, R289 to R291). -/
def Obligations.PullInstructions : Prop :=
  ∀ s : State,
    (CanPull (widthBits s.wm / 8) s →
      ∃ t, exec .pla s = .next t ∧ AccIs s t s.wm (s.pulledW s.wm) ∧ NZ t s.wm (s.pulledW s.wm) ∧
        Pulled (widthBits s.wm / 8) s t ∧ Frame [.c, .sp, .pc] [.n, .z] [] s t ∧ Advances .pla s t) ∧
    (CanPull (widthBits s.wx / 8) s →
      ∃ t, exec .plx s = .next t ∧ t.x.toNat = s.pulledW s.wx ∧ NZ t s.wx (s.pulledW s.wx) ∧
        Pulled (widthBits s.wx / 8) s t ∧ Frame [.x, .sp, .pc] [.n, .z] [] s t ∧ Advances .plx s t) ∧
    (CanPull (widthBits s.wx / 8) s →
      ∃ t, exec .ply s = .next t ∧ t.y.toNat = s.pulledW s.wx ∧ NZ t s.wx (s.pulledW s.wx) ∧
        Pulled (widthBits s.wx / 8) s t ∧ Frame [.y, .sp, .pc] [.n, .z] [] s t ∧ Advances .ply s t) ∧
    (CanPull 1 s →
      ∃ t, exec .plb s = .next t ∧ t.dbr.toNat = s.pulledW .w8 ∧ NZ t .w8 (s.pulledW .w8) ∧
        Pulled 1 s t ∧ Frame [.dbr, .sp, .pc] [.n, .z] [] s t ∧ Advances .plb s t) ∧
    (CanPull 2 s →
      ∃ t, exec .pld s = .next t ∧ t.d.toNat = s.pulledW .w16 ∧ NZ t .w16 (s.pulledW .w16) ∧
        Pulled 2 s t ∧ Frame [.d, .sp, .pc] [.n, .z] [] s t ∧ Advances .pld s t) ∧
    (CanPull 1 s →
      ∃ t, exec .plp s = .next t ∧ LoadsP (s.pulledByte 1) s t ∧ Pulled 1 s t ∧ RegsBut [.x, .y, .sp, .pc] s t ∧
        MemBut [] s t ∧ Advances .plp s t)

/-- The pushes: which bytes each instruction puts on the stack, high byte first; no flag and no other register changes (R292
to R301). -/
def Obligations.PushInstructions : Prop :=
  ∀ (s : State), s.emulationForced = true →
    let bytesOf (w : Width) (v : Word) : List Byte := match w with
      | .w8 => [lowByte v]
      | .w16 => [highByte v, lowByte v]
    (∀ e ∈ [(Instr.pha, bytesOf s.wm s.c), (.phx, bytesOf s.wx s.x), (.phy, bytesOf s.wx s.y), (.phb, [s.dbr]),
        (.phd, bytesOf .w16 s.d), (.phk, [s.pbr]), (.php, [if s.emulation then s.p ||| 0x30 else s.p])],
      CanPush e.2.length s →
      ∃ t, exec e.1 s = .next t ∧ PushedBytes e.2 s t ∧ RegsBut [.sp, .pc] s t ∧ FlagsBut [] s t ∧ Advances e.1 s t) ∧
    (∀ k : Word, CanPush 2 s →
      ∀ e ∈ [(Instr.pea k, k), (.per k, BitVec.ofNat 16 (s.pc.toNat + 3 + k.toNat))],
      ∃ t, exec e.1 s = .next t ∧ PushedBytes (bytesOf .w16 e.2) s t ∧ RegsBut [.sp, .pc] s t ∧ FlagsBut [] s t ∧
        Advances e.1 s t) ∧
    (∀ o1 : Byte, CanPush 2 s → s.is816 = true →
      let p0 : Addr := BitVec.ofNat 24 ((s.d.toNat + o1.toNat) % 65536)
      let p1 : Addr := BitVec.ofNat 24 ((s.d.toNat + o1.toNat + 1) % 65536)
      Backed s p0 → Backed s p1 →
      ∃ t, exec (.pei o1) s = .next t ∧ PushedBytes (bytesOf .w16 (s.pair p0 p1)) s t ∧ RegsBut [.sp, .pc] s t ∧
        FlagsBut [] s t ∧ Advances (.pei o1) s t)

/-! ## Interrupts (46_interrupt_instructions.md, 60_exceptions.md) -/

/-- BRK and COP enter their handlers with the address after the signature byte as return address, whatever the signature and
whatever i (R310, R311). -/
def Obligations.SoftwareInterrupts : Prop :=
  ∀ (s : State) (sig : Byte), s.emulationForced = true →
    (CanEnter .brk s → ∃ t, exec (.brk sig) s = .next t ∧ Enters .brk (s.pc + 2) s t) ∧
    (CanEnter .cop s → ∃ t, exec (.cop sig) s = .next t ∧ Enters .cop (s.pc + 2) s t)

/-- The entry sequence serves every kind of interrupt, hardware ones too (R340, R341, R343, R344). That bit 4 of the byte a
hardware interrupt pushes is 0 is an inference that the spec marks: "Bit 4 = 0 for hardware interrupts is [derived: from
the source's handler ...]" (R344). -/
def Obligations.InterruptEntry : Prop :=
  ∀ (s : State) (k : IntKind) (ret : Word), s.emulationForced = true → CanEnter k s →
    ∃ t, enter k ret s = .next t ∧ Enters k ret s t

/-- RTI: P, then PC, then in native mode PBR, from the stack (R312). The order is an inference that the spec marks: "The
order, status first, then program counter low and high, then bank, is the reverse of the entry sequence of rule R310
[derived: ...]" (R312). -/
def Obligations.ReturnFromInterrupt : Prop :=
  ∀ s : State, CanPull (if s.emulation then 3 else 4) s →
    ∃ t, exec .rti s = .next t ∧ LoadsP (s.pulledByte 1) s t ∧ t.pc = wordOf (s.pulledByte 2) (s.pulledByte 3) ∧
      t.pbr = (if s.emulation then s.pbr else s.pulledByte 4) ∧ Pulled (if s.emulation then 3 else 4) s t ∧
      RegsBut [.x, .y, .sp, .pc, .pbr] s t ∧ MemBut [] s t

/-- RTI undoes interrupt entry of any kind: from a state with the invariant and a stack in RAM, the interrupted program gets
back PC, P, S, X, Y, and in native mode PBR (R351). -/
def Obligations.ReturnUndoesEntry : Prop :=
  ∀ (s : State) (k : IntKind) (ret : Word), s.inv = true →
    (∀ n < (if s.emulation then 3 else 4), kindAt s.cfg (s.pushSlot n) = .ram) →
    Backed s (s.vectorAddr k) → Backed s (s.vectorAddr k + 1) →
    ∃ t u, enter k ret s = .next t ∧ exec .rti t = .next u ∧ u.pc = ret ∧ u.p = s.p ∧ u.sp = s.sp ∧ u.x = s.x ∧
      u.y = s.y ∧ (s.emulation = false → u.pbr = s.pbr)

/-- NOP and WDM move PC only; WAI and STP also leave Running (R313, R325 to R327). -/
def Obligations.NopWdmWaiStp : Prop :=
  ∀ (s : State) (sig : Byte),
    (∃ t, exec .nop s = .next t ∧ Frame [.pc] [] [] s t ∧ Advances .nop s t) ∧
    (∃ t, exec (.wdm sig) s = .next t ∧ Frame [.pc] [] [] s t ∧ Advances (.wdm sig) s t) ∧
    (∃ t, exec .wai s = .next t ∧ t.run = .waiting ∧ Frame [.pc, .run] [] [] s t ∧ Advances .wai s t) ∧
    (∃ t, exec .stp s = .next t ∧ t.run = .stopped ∧ Frame [.pc, .run] [] [] s t ∧ Advances .stp s t)

/-! ## Block moves and the mode switch (47_miscellaneous.md) -/

/-- One step of MVN and MVP: one byte copied, X and Y moved at WX, C counted down as 16 bits, DBR the destination bank, PC
past the instruction only when C wraps; no flag (R320, R321). -/
def Obligations.BlockMoveStep : Prop :=
  ∀ (s s1 : State) (o1 o2 v : Byte), read8 (addrOf (s.moveFrom o1 o2) s.x) s = .ok v s1 →
    NotDevice s (addrOf (s.moveTo o1 o2) s.y) →
    ∀ e ∈ [(Instr.mvn o1 o2, 1), (.mvp o1 o2, 65535)],
    ∃ t, exec e.1 s = .next t ∧ Stored s t (addrOf (s.moveTo o1 o2) s.y) v ∧
      t.x.toNat = (s.x.toNat + e.2) % modulus s.wx ∧ t.y.toNat = (s.y.toNat + e.2) % modulus s.wx ∧
      t.c.toNat = (s.c.toNat + 65535) % 65536 ∧ t.dbr = s.moveTo o1 o2 ∧
      t.pc = (if s.c = 0 then s.pc + 3 else s.pc) ∧
      Frame [.c, .x, .y, .dbr, .pc] [] [addrOf (s.moveTo o1 o2) s.y] s t

/-- The whole of an uninterrupted MVN: PC stays on it for C executions and leaves it at execution C + 1, with C = 0xFFFF and X
and Y past the blocks; and where the two blocks are in RAM and apart, the destination block then holds the source block
(R320). -/
def Obligations.BlockMoveRuns : Prop :=
  ∀ (s : State) (o1 o2 : Byte), NoDevice s.cfg →
    (∀ n ≤ s.c.toNat, ∃ u, execRepeat (.mvn o1 o2) n s = .next u ∧ u.pc = s.pc ∧ u.c.toNat = s.c.toNat - n) ∧
    ∃ t, execRepeat (.mvn o1 o2) (s.c.toNat + 1) s = .next t ∧ t.c = 0xFFFF ∧ t.pc = s.pc + 3 ∧
      t.dbr = s.moveTo o1 o2 ∧ t.x.toNat = (s.x.toNat + s.c.toNat + 1) % modulus s.wx ∧
      t.y.toNat = (s.y.toNat + s.c.toNat + 1) % modulus s.wx ∧ RegsBut [.c, .x, .y, .dbr, .pc] s t ∧ FlagsBut [] s t ∧
      (let src (k : Nat) : Addr := addrOf (s.moveFrom o1 o2) (BitVec.ofNat 16 ((s.x.toNat + k) % modulus s.wx))
       let dst (k : Nat) : Addr := addrOf (s.moveTo o1 o2) (BitVec.ofNat 16 ((s.y.toNat + k) % modulus s.wx))
       s.idxNarrow = true → (∀ k ≤ s.c.toNat, kindAt s.cfg (src k) = .ram ∧ kindAt s.cfg (dst k) = .ram) →
       (∀ j ≤ s.c.toNat, ∀ k ≤ s.c.toNat, busAddr s.cfg (src j) ≠ busAddr s.cfg (dst k)) →
       ∀ k ≤ s.c.toNat, t.cell (dst k) = s.cell (src k))

/-- XCE: c and e exchanged; emulation mode forces m, x, the high bytes of X and Y and of S; native mode entered from
emulation mode has m = x = 1; nothing else changes (R322). -/
def Obligations.ExchangeCarryAndEmulation : Prop :=
  ∀ s : State,
    ∃ t, exec .xce s = .next t ∧ t.e = s.flag .c ∧ t.flag .c = s.e ∧
      (t.e = true ∨ s.e = true → t.flag .m = true ∧ t.flag .x = true) ∧
      (t.e = true → t.x.toNat = s.x.toNat % 256 ∧ t.y.toNat = s.y.toNat % 256 ∧ t.sp.toNat = 0x100 + s.sp.toNat % 256) ∧
      (t.e = false → t.x = s.x ∧ t.y = s.y ∧ t.sp = s.sp) ∧ (t.e = false → s.e = false → FlagsBut [.c] s t) ∧
      Frame [.x, .y, .sp, .e, .pc] [.m, .x, .c] [] s t ∧ Advances .xce s t
end

