-- ==== Sys2Proof/Laws/Bits.lean ====
section
/-! SUPPORT. Bytes, words and addresses as numbers: what the helpers of Decode.lean and Flags.lean compute. -/

namespace Sys2Proof

@[simp] theorem toNat_lowByte (w : Word) : (lowByte w).toNat = w.toNat % 256 := by
  simp [lowByte, BitVec.extractLsb'_toNat]

@[simp] theorem toNat_highByte (w : Word) : (highByte w).toNat = w.toNat / 256 := by
  have := w.isLt
  simp only [highByte, BitVec.extractLsb'_toNat, Nat.shiftRight_eq_div_pow]
  omega

@[simp] theorem toNat_wordOf (lo hi : Byte) : (wordOf lo hi).toNat = hi.toNat * 256 + lo.toNat := by
  have := lo.isLt
  simp only [wordOf, BitVec.toNat_append, Nat.shiftLeft_eq]
  rw [Nat.mul_comm, ← Nat.two_pow_add_eq_or_of_lt this, Nat.mul_comm]

@[simp] theorem toNat_addrOf (bank : Byte) (off : Word) : (addrOf bank off).toNat = bank.toNat * 65536 + off.toNat := by
  have := off.isLt
  simp only [addrOf, BitVec.toNat_append, Nat.shiftLeft_eq]
  rw [Nat.mul_comm, ← Nat.two_pow_add_eq_or_of_lt this, Nat.mul_comm]

@[simp] theorem toNat_offset (a : Addr) : (Addr.offset a).toNat = a.toNat % 65536 := by
  simp [Addr.offset, BitVec.extractLsb'_toNat]

@[simp] theorem toNat_bank (a : Addr) : (Addr.bank a).toNat = a.toNat / 65536 := by
  have := a.isLt
  simp only [Addr.bank, BitVec.extractLsb'_toNat, Nat.shiftRight_eq_div_pow]
  omega

@[simp] theorem lowByte_wordOf (lo hi : Byte) : lowByte (wordOf lo hi) = lo := by
  have := lo.isLt; apply BitVec.eq_of_toNat_eq; simp; omega

@[simp] theorem highByte_wordOf (lo hi : Byte) : highByte (wordOf lo hi) = hi := by
  have := lo.isLt; apply BitVec.eq_of_toNat_eq; simp; omega

@[simp] theorem wordOf_lowByte_highByte (w : Word) : wordOf (lowByte w) (highByte w) = w := by
  apply BitVec.eq_of_toNat_eq; simp; omega

@[simp] theorem offset_addrOf (bank : Byte) (off : Word) : Addr.offset (addrOf bank off) = off := by
  have := off.isLt; apply BitVec.eq_of_toNat_eq; simp; omega

@[simp] theorem bank_addrOf (bank : Byte) (off : Word) : Addr.bank (addrOf bank off) = bank := by
  have := off.isLt; apply BitVec.eq_of_toNat_eq; simp; omega

@[simp] theorem addrOf_bank_offset (a : Addr) : addrOf a.bank a.offset = a := by
  apply BitVec.eq_of_toNat_eq; simp; omega

end Sys2Proof

namespace Sys2Proof.Machine

@[simp] theorem modulus_w8 : modulus .w8 = 256 := rfl
@[simp] theorem modulus_w16 : modulus .w16 = 65536 := rfl
@[simp] theorem widthBits_w8 : widthBits .w8 = 8 := rfl
@[simp] theorem widthBits_w16 : widthBits .w16 = 16 := rfl

theorem modulus_pos (w : Width) : 0 < modulus w := by cases w <;> decide

@[simp] theorem toNat_trunc (w : Width) (v : Word) : (trunc w v).toNat = v.toNat % modulus w := by
  have := v.isLt
  cases w
  · show (v &&& 0x00FF).toNat = v.toNat % 256
    rw [BitVec.toNat_and]
    exact Nat.and_two_pow_sub_one_eq_mod v.toNat 8
  · simp only [trunc, modulus_w16]; omega

@[simp] theorem toNat_ofNatMod (w : Width) (n : Nat) : (ofNatMod w n).toNat = n % modulus w := by
  cases w
  · simp [ofNatMod]; omega
  · simp [ofNatMod]

@[simp] theorem toNat_ofIntMod (w : Width) (n : Int) : (ofIntMod w n).toNat = (n % (modulus w : Int)).toNat := by
  cases w <;> (simp [ofIntMod]; omega)

theorem msb_eq_testBit (w : Width) (v : Word) : msb w v = v.toNat.testBit (widthBits w - 1) := rfl

theorem trunc_of_lt {w : Width} {v : Word} (h : v.toNat < modulus w) : trunc w v = v := by
  apply BitVec.eq_of_toNat_eq; rw [toNat_trunc, Nat.mod_eq_of_lt h]

theorem trunc_beq_zero (w : Width) (v : Word) : (trunc w v == 0) = decide (v.toNat % modulus w = 0) := by
  rw [Bool.eq_iff_iff]
  simp only [beq_iff_eq, decide_eq_true_eq]
  rw [← toNat_trunc]
  constructor
  · intro h; rw [h]; rfl
  · intro h; exact BitVec.eq_of_toNat_eq (by simpa using h)

end Sys2Proof.Machine
end

