-- ==== Sys2Proof/Laws/State.lean ====
section
/-! SUPPORT. What each update of the state does to each field, so that no later proof unfolds a record update; and what the
updates do to the flags, the modes, the widths and the bytes of memory. -/

namespace Sys2Proof.Machine

/-! ## `State.setFlag` -/

@[simp] theorem State.setFlag_cfg (s : State) (f : Flag) (b : Bool) : (s.setFlag f b).cfg = s.cfg := rfl
@[simp] theorem State.setFlag_c (s : State) (f : Flag) (b : Bool) : (s.setFlag f b).c = s.c := rfl
@[simp] theorem State.setFlag_x (s : State) (f : Flag) (b : Bool) : (s.setFlag f b).x = s.x := rfl
@[simp] theorem State.setFlag_y (s : State) (f : Flag) (b : Bool) : (s.setFlag f b).y = s.y := rfl
@[simp] theorem State.setFlag_sp (s : State) (f : Flag) (b : Bool) : (s.setFlag f b).sp = s.sp := rfl
@[simp] theorem State.setFlag_d (s : State) (f : Flag) (b : Bool) : (s.setFlag f b).d = s.d := rfl
@[simp] theorem State.setFlag_dbr (s : State) (f : Flag) (b : Bool) : (s.setFlag f b).dbr = s.dbr := rfl
@[simp] theorem State.setFlag_pbr (s : State) (f : Flag) (b : Bool) : (s.setFlag f b).pbr = s.pbr := rfl
@[simp] theorem State.setFlag_pc (s : State) (f : Flag) (b : Bool) : (s.setFlag f b).pc = s.pc := rfl
@[simp] theorem State.setFlag_p (s : State) (f : Flag) (b : Bool) : (s.setFlag f b).p = putFlag s.p f b := rfl
@[simp] theorem State.setFlag_e (s : State) (f : Flag) (b : Bool) : (s.setFlag f b).e = s.e := rfl
@[simp] theorem State.setFlag_run (s : State) (f : Flag) (b : Bool) : (s.setFlag f b).run = s.run := rfl
@[simp] theorem State.setFlag_nmiPending (s : State) (f : Flag) (b : Bool) : (s.setFlag f b).nmiPending = s.nmiPending := rfl
@[simp] theorem State.setFlag_irqLine (s : State) (f : Flag) (b : Bool) : (s.setFlag f b).irqLine = s.irqLine := rfl
@[simp] theorem State.setFlag_inputs (s : State) (f : Flag) (b : Bool) : (s.setFlag f b).inputs = s.inputs := rfl
@[simp] theorem State.setFlag_mem (s : State) (f : Flag) (b : Bool) : (s.setFlag f b).mem = s.mem := rfl
@[simp] theorem State.setFlag_freeIndex (s : State) (f : Flag) (b : Bool) : (s.setFlag f b).freeIndex = s.freeIndex := rfl

/-! ## `State.setNZ` -/

@[simp] theorem State.setNZ_cfg (s : State) (w : Width) (v : Word) : (s.setNZ w v).cfg = s.cfg := rfl
@[simp] theorem State.setNZ_c (s : State) (w : Width) (v : Word) : (s.setNZ w v).c = s.c := rfl
@[simp] theorem State.setNZ_x (s : State) (w : Width) (v : Word) : (s.setNZ w v).x = s.x := rfl
@[simp] theorem State.setNZ_y (s : State) (w : Width) (v : Word) : (s.setNZ w v).y = s.y := rfl
@[simp] theorem State.setNZ_sp (s : State) (w : Width) (v : Word) : (s.setNZ w v).sp = s.sp := rfl
@[simp] theorem State.setNZ_d (s : State) (w : Width) (v : Word) : (s.setNZ w v).d = s.d := rfl
@[simp] theorem State.setNZ_dbr (s : State) (w : Width) (v : Word) : (s.setNZ w v).dbr = s.dbr := rfl
@[simp] theorem State.setNZ_pbr (s : State) (w : Width) (v : Word) : (s.setNZ w v).pbr = s.pbr := rfl
@[simp] theorem State.setNZ_pc (s : State) (w : Width) (v : Word) : (s.setNZ w v).pc = s.pc := rfl
@[simp] theorem State.setNZ_e (s : State) (w : Width) (v : Word) : (s.setNZ w v).e = s.e := rfl
@[simp] theorem State.setNZ_run (s : State) (w : Width) (v : Word) : (s.setNZ w v).run = s.run := rfl
@[simp] theorem State.setNZ_nmiPending (s : State) (w : Width) (v : Word) : (s.setNZ w v).nmiPending = s.nmiPending := rfl
@[simp] theorem State.setNZ_irqLine (s : State) (w : Width) (v : Word) : (s.setNZ w v).irqLine = s.irqLine := rfl
@[simp] theorem State.setNZ_inputs (s : State) (w : Width) (v : Word) : (s.setNZ w v).inputs = s.inputs := rfl
@[simp] theorem State.setNZ_mem (s : State) (w : Width) (v : Word) : (s.setNZ w v).mem = s.mem := rfl
@[simp] theorem State.setNZ_freeIndex (s : State) (w : Width) (v : Word) : (s.setNZ w v).freeIndex = s.freeIndex := rfl

/-! ## `State.drawn` -/

@[simp] theorem State.drawn_cfg (s : State) : (s.drawn).cfg = s.cfg := rfl
@[simp] theorem State.drawn_c (s : State) : (s.drawn).c = s.c := rfl
@[simp] theorem State.drawn_x (s : State) : (s.drawn).x = s.x := rfl
@[simp] theorem State.drawn_y (s : State) : (s.drawn).y = s.y := rfl
@[simp] theorem State.drawn_sp (s : State) : (s.drawn).sp = s.sp := rfl
@[simp] theorem State.drawn_d (s : State) : (s.drawn).d = s.d := rfl
@[simp] theorem State.drawn_dbr (s : State) : (s.drawn).dbr = s.dbr := rfl
@[simp] theorem State.drawn_pbr (s : State) : (s.drawn).pbr = s.pbr := rfl
@[simp] theorem State.drawn_pc (s : State) : (s.drawn).pc = s.pc := rfl
@[simp] theorem State.drawn_p (s : State) : (s.drawn).p = s.p := rfl
@[simp] theorem State.drawn_e (s : State) : (s.drawn).e = s.e := rfl
@[simp] theorem State.drawn_run (s : State) : (s.drawn).run = s.run := rfl
@[simp] theorem State.drawn_nmiPending (s : State) : (s.drawn).nmiPending = s.nmiPending := rfl
@[simp] theorem State.drawn_irqLine (s : State) : (s.drawn).irqLine = s.irqLine := rfl
@[simp] theorem State.drawn_inputs (s : State) : (s.drawn).inputs = s.inputs := rfl
@[simp] theorem State.drawn_mem (s : State) : (s.drawn).mem = s.mem := rfl
@[simp] theorem State.drawn_freeIndex (s : State) : (s.drawn).freeIndex = s.freeIndex + 1 := rfl

/-! ## `State.drawFlag` -/

@[simp] theorem State.drawFlag_cfg (s : State) (f : Flag) : (s.drawFlag f).cfg = s.cfg := rfl
@[simp] theorem State.drawFlag_c (s : State) (f : Flag) : (s.drawFlag f).c = s.c := rfl
@[simp] theorem State.drawFlag_x (s : State) (f : Flag) : (s.drawFlag f).x = s.x := rfl
@[simp] theorem State.drawFlag_y (s : State) (f : Flag) : (s.drawFlag f).y = s.y := rfl
@[simp] theorem State.drawFlag_sp (s : State) (f : Flag) : (s.drawFlag f).sp = s.sp := rfl
@[simp] theorem State.drawFlag_d (s : State) (f : Flag) : (s.drawFlag f).d = s.d := rfl
@[simp] theorem State.drawFlag_dbr (s : State) (f : Flag) : (s.drawFlag f).dbr = s.dbr := rfl
@[simp] theorem State.drawFlag_pbr (s : State) (f : Flag) : (s.drawFlag f).pbr = s.pbr := rfl
@[simp] theorem State.drawFlag_pc (s : State) (f : Flag) : (s.drawFlag f).pc = s.pc := rfl
@[simp] theorem State.drawFlag_e (s : State) (f : Flag) : (s.drawFlag f).e = s.e := rfl
@[simp] theorem State.drawFlag_run (s : State) (f : Flag) : (s.drawFlag f).run = s.run := rfl
@[simp] theorem State.drawFlag_nmiPending (s : State) (f : Flag) : (s.drawFlag f).nmiPending = s.nmiPending := rfl
@[simp] theorem State.drawFlag_irqLine (s : State) (f : Flag) : (s.drawFlag f).irqLine = s.irqLine := rfl
@[simp] theorem State.drawFlag_inputs (s : State) (f : Flag) : (s.drawFlag f).inputs = s.inputs := rfl
@[simp] theorem State.drawFlag_mem (s : State) (f : Flag) : (s.drawFlag f).mem = s.mem := rfl
@[simp] theorem State.drawFlag_freeIndex (s : State) (f : Flag) : (s.drawFlag f).freeIndex = s.freeIndex + 1 := rfl

/-! ## `State.accWrite` -/

@[simp] theorem State.accWrite_cfg (s : State) (w : Width) (v : Word) : (s.accWrite w v).cfg = s.cfg := by cases w <;> rfl
@[simp] theorem State.accWrite_x (s : State) (w : Width) (v : Word) : (s.accWrite w v).x = s.x := by cases w <;> rfl
@[simp] theorem State.accWrite_y (s : State) (w : Width) (v : Word) : (s.accWrite w v).y = s.y := by cases w <;> rfl
@[simp] theorem State.accWrite_sp (s : State) (w : Width) (v : Word) : (s.accWrite w v).sp = s.sp := by cases w <;> rfl
@[simp] theorem State.accWrite_d (s : State) (w : Width) (v : Word) : (s.accWrite w v).d = s.d := by cases w <;> rfl
@[simp] theorem State.accWrite_dbr (s : State) (w : Width) (v : Word) : (s.accWrite w v).dbr = s.dbr := by cases w <;> rfl
@[simp] theorem State.accWrite_pbr (s : State) (w : Width) (v : Word) : (s.accWrite w v).pbr = s.pbr := by cases w <;> rfl
@[simp] theorem State.accWrite_pc (s : State) (w : Width) (v : Word) : (s.accWrite w v).pc = s.pc := by cases w <;> rfl
@[simp] theorem State.accWrite_p (s : State) (w : Width) (v : Word) : (s.accWrite w v).p = s.p := by cases w <;> rfl
@[simp] theorem State.accWrite_e (s : State) (w : Width) (v : Word) : (s.accWrite w v).e = s.e := by cases w <;> rfl
@[simp] theorem State.accWrite_run (s : State) (w : Width) (v : Word) : (s.accWrite w v).run = s.run := by cases w <;> rfl
@[simp] theorem State.accWrite_nmiPending (s : State) (w : Width) (v : Word) : (s.accWrite w v).nmiPending = s.nmiPending := by cases w <;> rfl
@[simp] theorem State.accWrite_irqLine (s : State) (w : Width) (v : Word) : (s.accWrite w v).irqLine = s.irqLine := by cases w <;> rfl
@[simp] theorem State.accWrite_inputs (s : State) (w : Width) (v : Word) : (s.accWrite w v).inputs = s.inputs := by cases w <;> rfl
@[simp] theorem State.accWrite_mem (s : State) (w : Width) (v : Word) : (s.accWrite w v).mem = s.mem := by cases w <;> rfl
@[simp] theorem State.accWrite_freeIndex (s : State) (w : Width) (v : Word) : (s.accWrite w v).freeIndex = s.freeIndex := by cases w <;> rfl

/-! ## `State.idxWrite` -/

@[simp] theorem State.idxWrite_cfg (s : State) (r : IdxReg) (w : Width) (v : Word) : (s.idxWrite r w v).cfg = s.cfg := by cases r <;> rfl
@[simp] theorem State.idxWrite_c (s : State) (r : IdxReg) (w : Width) (v : Word) : (s.idxWrite r w v).c = s.c := by cases r <;> rfl
@[simp] theorem State.idxWrite_sp (s : State) (r : IdxReg) (w : Width) (v : Word) : (s.idxWrite r w v).sp = s.sp := by cases r <;> rfl
@[simp] theorem State.idxWrite_d (s : State) (r : IdxReg) (w : Width) (v : Word) : (s.idxWrite r w v).d = s.d := by cases r <;> rfl
@[simp] theorem State.idxWrite_dbr (s : State) (r : IdxReg) (w : Width) (v : Word) : (s.idxWrite r w v).dbr = s.dbr := by cases r <;> rfl
@[simp] theorem State.idxWrite_pbr (s : State) (r : IdxReg) (w : Width) (v : Word) : (s.idxWrite r w v).pbr = s.pbr := by cases r <;> rfl
@[simp] theorem State.idxWrite_pc (s : State) (r : IdxReg) (w : Width) (v : Word) : (s.idxWrite r w v).pc = s.pc := by cases r <;> rfl
@[simp] theorem State.idxWrite_p (s : State) (r : IdxReg) (w : Width) (v : Word) : (s.idxWrite r w v).p = s.p := by cases r <;> rfl
@[simp] theorem State.idxWrite_e (s : State) (r : IdxReg) (w : Width) (v : Word) : (s.idxWrite r w v).e = s.e := by cases r <;> rfl
@[simp] theorem State.idxWrite_run (s : State) (r : IdxReg) (w : Width) (v : Word) : (s.idxWrite r w v).run = s.run := by cases r <;> rfl
@[simp] theorem State.idxWrite_nmiPending (s : State) (r : IdxReg) (w : Width) (v : Word) : (s.idxWrite r w v).nmiPending = s.nmiPending := by cases r <;> rfl
@[simp] theorem State.idxWrite_irqLine (s : State) (r : IdxReg) (w : Width) (v : Word) : (s.idxWrite r w v).irqLine = s.irqLine := by cases r <;> rfl
@[simp] theorem State.idxWrite_inputs (s : State) (r : IdxReg) (w : Width) (v : Word) : (s.idxWrite r w v).inputs = s.inputs := by cases r <;> rfl
@[simp] theorem State.idxWrite_mem (s : State) (r : IdxReg) (w : Width) (v : Word) : (s.idxWrite r w v).mem = s.mem := by cases r <;> rfl
@[simp] theorem State.idxWrite_freeIndex (s : State) (r : IdxReg) (w : Width) (v : Word) : (s.idxWrite r w v).freeIndex = s.freeIndex := by cases r <;> rfl

/-! ## `State.clearIdxHigh` -/

@[simp] theorem State.clearIdxHigh_cfg (s : State) : (s.clearIdxHigh).cfg = s.cfg := rfl
@[simp] theorem State.clearIdxHigh_c (s : State) : (s.clearIdxHigh).c = s.c := rfl
@[simp] theorem State.clearIdxHigh_x (s : State) : (s.clearIdxHigh).x = s.x &&& 0x00FF := rfl
@[simp] theorem State.clearIdxHigh_y (s : State) : (s.clearIdxHigh).y = s.y &&& 0x00FF := rfl
@[simp] theorem State.clearIdxHigh_sp (s : State) : (s.clearIdxHigh).sp = s.sp := rfl
@[simp] theorem State.clearIdxHigh_d (s : State) : (s.clearIdxHigh).d = s.d := rfl
@[simp] theorem State.clearIdxHigh_dbr (s : State) : (s.clearIdxHigh).dbr = s.dbr := rfl
@[simp] theorem State.clearIdxHigh_pbr (s : State) : (s.clearIdxHigh).pbr = s.pbr := rfl
@[simp] theorem State.clearIdxHigh_pc (s : State) : (s.clearIdxHigh).pc = s.pc := rfl
@[simp] theorem State.clearIdxHigh_p (s : State) : (s.clearIdxHigh).p = s.p := rfl
@[simp] theorem State.clearIdxHigh_e (s : State) : (s.clearIdxHigh).e = s.e := rfl
@[simp] theorem State.clearIdxHigh_run (s : State) : (s.clearIdxHigh).run = s.run := rfl
@[simp] theorem State.clearIdxHigh_nmiPending (s : State) : (s.clearIdxHigh).nmiPending = s.nmiPending := rfl
@[simp] theorem State.clearIdxHigh_irqLine (s : State) : (s.clearIdxHigh).irqLine = s.irqLine := rfl
@[simp] theorem State.clearIdxHigh_inputs (s : State) : (s.clearIdxHigh).inputs = s.inputs := rfl
@[simp] theorem State.clearIdxHigh_mem (s : State) : (s.clearIdxHigh).mem = s.mem := rfl
@[simp] theorem State.clearIdxHigh_freeIndex (s : State) : (s.clearIdxHigh).freeIndex = s.freeIndex := rfl

/-! ## `State.advance` -/

@[simp] theorem State.advance_cfg (s : State) (n : Nat) : (s.advance n).cfg = s.cfg := rfl
@[simp] theorem State.advance_c (s : State) (n : Nat) : (s.advance n).c = s.c := rfl
@[simp] theorem State.advance_x (s : State) (n : Nat) : (s.advance n).x = s.x := rfl
@[simp] theorem State.advance_y (s : State) (n : Nat) : (s.advance n).y = s.y := rfl
@[simp] theorem State.advance_sp (s : State) (n : Nat) : (s.advance n).sp = s.sp := rfl
@[simp] theorem State.advance_d (s : State) (n : Nat) : (s.advance n).d = s.d := rfl
@[simp] theorem State.advance_dbr (s : State) (n : Nat) : (s.advance n).dbr = s.dbr := rfl
@[simp] theorem State.advance_pbr (s : State) (n : Nat) : (s.advance n).pbr = s.pbr := rfl
@[simp] theorem State.advance_pc (s : State) (n : Nat) : (s.advance n).pc = s.pc + BitVec.ofNat 16 n := rfl
@[simp] theorem State.advance_p (s : State) (n : Nat) : (s.advance n).p = s.p := rfl
@[simp] theorem State.advance_e (s : State) (n : Nat) : (s.advance n).e = s.e := rfl
@[simp] theorem State.advance_run (s : State) (n : Nat) : (s.advance n).run = s.run := rfl
@[simp] theorem State.advance_nmiPending (s : State) (n : Nat) : (s.advance n).nmiPending = s.nmiPending := rfl
@[simp] theorem State.advance_irqLine (s : State) (n : Nat) : (s.advance n).irqLine = s.irqLine := rfl
@[simp] theorem State.advance_inputs (s : State) (n : Nat) : (s.advance n).inputs = s.inputs := rfl
@[simp] theorem State.advance_mem (s : State) (n : Nat) : (s.advance n).mem = s.mem := rfl
@[simp] theorem State.advance_freeIndex (s : State) (n : Nat) : (s.advance n).freeIndex = s.freeIndex := rfl

/-! ## `State.putCell` -/

@[simp] theorem State.putCell_cfg (s : State) (a : Addr) (b : Byte) : (s.putCell a b).cfg = s.cfg := rfl
@[simp] theorem State.putCell_c (s : State) (a : Addr) (b : Byte) : (s.putCell a b).c = s.c := rfl
@[simp] theorem State.putCell_x (s : State) (a : Addr) (b : Byte) : (s.putCell a b).x = s.x := rfl
@[simp] theorem State.putCell_y (s : State) (a : Addr) (b : Byte) : (s.putCell a b).y = s.y := rfl
@[simp] theorem State.putCell_sp (s : State) (a : Addr) (b : Byte) : (s.putCell a b).sp = s.sp := rfl
@[simp] theorem State.putCell_d (s : State) (a : Addr) (b : Byte) : (s.putCell a b).d = s.d := rfl
@[simp] theorem State.putCell_dbr (s : State) (a : Addr) (b : Byte) : (s.putCell a b).dbr = s.dbr := rfl
@[simp] theorem State.putCell_pbr (s : State) (a : Addr) (b : Byte) : (s.putCell a b).pbr = s.pbr := rfl
@[simp] theorem State.putCell_pc (s : State) (a : Addr) (b : Byte) : (s.putCell a b).pc = s.pc := rfl
@[simp] theorem State.putCell_p (s : State) (a : Addr) (b : Byte) : (s.putCell a b).p = s.p := rfl
@[simp] theorem State.putCell_e (s : State) (a : Addr) (b : Byte) : (s.putCell a b).e = s.e := rfl
@[simp] theorem State.putCell_run (s : State) (a : Addr) (b : Byte) : (s.putCell a b).run = s.run := rfl
@[simp] theorem State.putCell_nmiPending (s : State) (a : Addr) (b : Byte) : (s.putCell a b).nmiPending = s.nmiPending := rfl
@[simp] theorem State.putCell_irqLine (s : State) (a : Addr) (b : Byte) : (s.putCell a b).irqLine = s.irqLine := rfl
@[simp] theorem State.putCell_inputs (s : State) (a : Addr) (b : Byte) : (s.putCell a b).inputs = s.inputs := rfl
@[simp] theorem State.putCell_mem (s : State) (a : Addr) (b : Byte) : (s.putCell a b).mem = s.mem.write (busAddr s.cfg a).toNat b := rfl
@[simp] theorem State.putCell_freeIndex (s : State) (a : Addr) (b : Byte) : (s.putCell a b).freeIndex = s.freeIndex := rfl

/-! ## `State.moveS` -/

@[simp] theorem State.moveS_cfg (s : State) (n : Word) : (s.moveS n).cfg = s.cfg := by unfold State.moveS; split <;> rfl
@[simp] theorem State.moveS_c (s : State) (n : Word) : (s.moveS n).c = s.c := by unfold State.moveS; split <;> rfl
@[simp] theorem State.moveS_x (s : State) (n : Word) : (s.moveS n).x = s.x := by unfold State.moveS; split <;> rfl
@[simp] theorem State.moveS_y (s : State) (n : Word) : (s.moveS n).y = s.y := by unfold State.moveS; split <;> rfl
@[simp] theorem State.moveS_d (s : State) (n : Word) : (s.moveS n).d = s.d := by unfold State.moveS; split <;> rfl
@[simp] theorem State.moveS_dbr (s : State) (n : Word) : (s.moveS n).dbr = s.dbr := by unfold State.moveS; split <;> rfl
@[simp] theorem State.moveS_pbr (s : State) (n : Word) : (s.moveS n).pbr = s.pbr := by unfold State.moveS; split <;> rfl
@[simp] theorem State.moveS_pc (s : State) (n : Word) : (s.moveS n).pc = s.pc := by unfold State.moveS; split <;> rfl
@[simp] theorem State.moveS_p (s : State) (n : Word) : (s.moveS n).p = s.p := by unfold State.moveS; split <;> rfl
@[simp] theorem State.moveS_e (s : State) (n : Word) : (s.moveS n).e = s.e := by unfold State.moveS; split <;> rfl
@[simp] theorem State.moveS_run (s : State) (n : Word) : (s.moveS n).run = s.run := by unfold State.moveS; split <;> rfl
@[simp] theorem State.moveS_nmiPending (s : State) (n : Word) : (s.moveS n).nmiPending = s.nmiPending := by unfold State.moveS; split <;> rfl
@[simp] theorem State.moveS_irqLine (s : State) (n : Word) : (s.moveS n).irqLine = s.irqLine := by unfold State.moveS; split <;> rfl
@[simp] theorem State.moveS_inputs (s : State) (n : Word) : (s.moveS n).inputs = s.inputs := by unfold State.moveS; split <;> rfl
@[simp] theorem State.moveS_mem (s : State) (n : Word) : (s.moveS n).mem = s.mem := by unfold State.moveS; split <;> rfl
@[simp] theorem State.moveS_freeIndex (s : State) (n : Word) : (s.moveS n).freeIndex = s.freeIndex := by unfold State.moveS; split <;> rfl

/-! ## `State.loadP` -/

@[simp] theorem State.loadP_cfg (s : State) (v : Byte) : (s.loadP v).cfg = s.cfg := by unfold State.loadP; split <;> [rfl; split <;> rfl]
@[simp] theorem State.loadP_c (s : State) (v : Byte) : (s.loadP v).c = s.c := by unfold State.loadP; split <;> [rfl; split <;> rfl]
@[simp] theorem State.loadP_sp (s : State) (v : Byte) : (s.loadP v).sp = s.sp := by unfold State.loadP; split <;> [rfl; split <;> rfl]
@[simp] theorem State.loadP_d (s : State) (v : Byte) : (s.loadP v).d = s.d := by unfold State.loadP; split <;> [rfl; split <;> rfl]
@[simp] theorem State.loadP_dbr (s : State) (v : Byte) : (s.loadP v).dbr = s.dbr := by unfold State.loadP; split <;> [rfl; split <;> rfl]
@[simp] theorem State.loadP_pbr (s : State) (v : Byte) : (s.loadP v).pbr = s.pbr := by unfold State.loadP; split <;> [rfl; split <;> rfl]
@[simp] theorem State.loadP_pc (s : State) (v : Byte) : (s.loadP v).pc = s.pc := by unfold State.loadP; split <;> [rfl; split <;> rfl]
@[simp] theorem State.loadP_e (s : State) (v : Byte) : (s.loadP v).e = s.e := by unfold State.loadP; split <;> [rfl; split <;> rfl]
@[simp] theorem State.loadP_run (s : State) (v : Byte) : (s.loadP v).run = s.run := by unfold State.loadP; split <;> [rfl; split <;> rfl]
@[simp] theorem State.loadP_nmiPending (s : State) (v : Byte) : (s.loadP v).nmiPending = s.nmiPending := by unfold State.loadP; split <;> [rfl; split <;> rfl]
@[simp] theorem State.loadP_irqLine (s : State) (v : Byte) : (s.loadP v).irqLine = s.irqLine := by unfold State.loadP; split <;> [rfl; split <;> rfl]
@[simp] theorem State.loadP_inputs (s : State) (v : Byte) : (s.loadP v).inputs = s.inputs := by unfold State.loadP; split <;> [rfl; split <;> rfl]
@[simp] theorem State.loadP_mem (s : State) (v : Byte) : (s.loadP v).mem = s.mem := by unfold State.loadP; split <;> [rfl; split <;> rfl]
@[simp] theorem State.loadP_freeIndex (s : State) (v : Byte) : (s.loadP v).freeIndex = s.freeIndex := by unfold State.loadP; split <;> [rfl; split <;> rfl]

/-! ## `State.latchInput` -/

@[simp] theorem State.latchInput_cfg (s : State) : (s.latchInput).cfg = s.cfg := rfl
@[simp] theorem State.latchInput_c (s : State) : (s.latchInput).c = s.c := rfl
@[simp] theorem State.latchInput_x (s : State) : (s.latchInput).x = s.x := rfl
@[simp] theorem State.latchInput_y (s : State) : (s.latchInput).y = s.y := rfl
@[simp] theorem State.latchInput_sp (s : State) : (s.latchInput).sp = s.sp := rfl
@[simp] theorem State.latchInput_d (s : State) : (s.latchInput).d = s.d := rfl
@[simp] theorem State.latchInput_dbr (s : State) : (s.latchInput).dbr = s.dbr := rfl
@[simp] theorem State.latchInput_pbr (s : State) : (s.latchInput).pbr = s.pbr := rfl
@[simp] theorem State.latchInput_pc (s : State) : (s.latchInput).pc = s.pc := rfl
@[simp] theorem State.latchInput_p (s : State) : (s.latchInput).p = s.p := rfl
@[simp] theorem State.latchInput_e (s : State) : (s.latchInput).e = s.e := rfl
@[simp] theorem State.latchInput_run (s : State) : (s.latchInput).run = s.run := rfl
@[simp] theorem State.latchInput_nmiPending (s : State) : (s.latchInput).nmiPending = (s.nmiPending || s.nextInput.nmiEdge) := rfl
@[simp] theorem State.latchInput_irqLine (s : State) : (s.latchInput).irqLine = s.nextInput.irqLine := rfl
@[simp] theorem State.latchInput_inputs (s : State) : (s.latchInput).inputs = s.inputs.tail := rfl
@[simp] theorem State.latchInput_mem (s : State) : (s.latchInput).mem = s.mem := rfl
@[simp] theorem State.latchInput_freeIndex (s : State) : (s.latchInput).freeIndex = s.freeIndex := rfl

/-! ## Views of the state: what they depend on -/

theorem State.is816_congr {s t : State} (h : t.cfg = s.cfg) : t.is816 = s.is816 := by simp [State.is816, h]
theorem State.emulation_congr {s t : State} (h : t.cfg = s.cfg) (he : t.e = s.e) : t.emulation = s.emulation := by
  simp [State.emulation, State.is816, h, he]
theorem State.flag_congr {s t : State} (h : t.p = s.p) (f : Flag) : t.flag f = s.flag f := by simp [State.flag, h]
theorem State.wm_congr {s t : State} (h : t.cfg = s.cfg) (he : t.e = s.e) (hm : t.flag .m = s.flag .m) : t.wm = s.wm := by
  simp [State.wm, State.emulation_congr h he, hm]
theorem State.wx_congr {s t : State} (h : t.cfg = s.cfg) (he : t.e = s.e) (hx : t.flag .x = s.flag .x) : t.wx = s.wx := by
  simp [State.wx, State.emulation_congr h he, hx]
theorem State.cell_congr {s t : State} (h : t.cfg = s.cfg) (hm : t.mem = s.mem) (a : Addr) : t.cell a = s.cell a := by
  simp [State.cell, h, hm]
theorem State.succ_congr {s t : State} (h : t.cfg = s.cfg) (a : Addr) (wrap : Wrap) : t.succ a wrap = s.succ a wrap := by
  cases wrap <;> simp [State.succ, State.is816, h]

@[simp] theorem State.is816_setFlag (s : State) (f : Flag) (b : Bool) : (s.setFlag f b).is816 = s.is816 := State.is816_congr (by simp)
@[simp] theorem State.emulation_setFlag (s : State) (f : Flag) (b : Bool) : (s.setFlag f b).emulation = s.emulation := State.emulation_congr (by simp) (by simp)
@[simp] theorem State.cell_setFlag (s : State) (f : Flag) (b : Bool) (k : Addr) : (s.setFlag f b).cell k = s.cell k := State.cell_congr (by simp) (by simp) k
@[simp] theorem State.is816_setNZ (s : State) (w : Width) (v : Word) : (s.setNZ w v).is816 = s.is816 := State.is816_congr (by simp)
@[simp] theorem State.emulation_setNZ (s : State) (w : Width) (v : Word) : (s.setNZ w v).emulation = s.emulation := State.emulation_congr (by simp) (by simp)
@[simp] theorem State.cell_setNZ (s : State) (w : Width) (v : Word) (k : Addr) : (s.setNZ w v).cell k = s.cell k := State.cell_congr (by simp) (by simp) k
@[simp] theorem State.is816_drawn (s : State) : (s.drawn).is816 = s.is816 := State.is816_congr (by simp)
@[simp] theorem State.emulation_drawn (s : State) : (s.drawn).emulation = s.emulation := State.emulation_congr (by simp) (by simp)
@[simp] theorem State.flag_drawn (s : State) (g : Flag) : (s.drawn).flag g = s.flag g := State.flag_congr (by simp) g
@[simp] theorem State.wm_drawn (s : State) : (s.drawn).wm = s.wm := State.wm_congr (by simp) (by simp) (State.flag_congr (by simp) _)
@[simp] theorem State.wx_drawn (s : State) : (s.drawn).wx = s.wx := State.wx_congr (by simp) (by simp) (State.flag_congr (by simp) _)
@[simp] theorem State.cell_drawn (s : State) (k : Addr) : (s.drawn).cell k = s.cell k := State.cell_congr (by simp) (by simp) k
@[simp] theorem State.is816_drawFlag (s : State) (f : Flag) : (s.drawFlag f).is816 = s.is816 := State.is816_congr (by simp)
@[simp] theorem State.emulation_drawFlag (s : State) (f : Flag) : (s.drawFlag f).emulation = s.emulation := State.emulation_congr (by simp) (by simp)
@[simp] theorem State.cell_drawFlag (s : State) (f : Flag) (k : Addr) : (s.drawFlag f).cell k = s.cell k := State.cell_congr (by simp) (by simp) k
@[simp] theorem State.is816_accWrite (s : State) (w : Width) (v : Word) : (s.accWrite w v).is816 = s.is816 := State.is816_congr (by simp)
@[simp] theorem State.emulation_accWrite (s : State) (w : Width) (v : Word) : (s.accWrite w v).emulation = s.emulation := State.emulation_congr (by simp) (by simp)
@[simp] theorem State.flag_accWrite (s : State) (w : Width) (v : Word) (g : Flag) : (s.accWrite w v).flag g = s.flag g := State.flag_congr (by simp) g
@[simp] theorem State.wm_accWrite (s : State) (w : Width) (v : Word) : (s.accWrite w v).wm = s.wm := State.wm_congr (by simp) (by simp) (State.flag_congr (by simp) _)
@[simp] theorem State.wx_accWrite (s : State) (w : Width) (v : Word) : (s.accWrite w v).wx = s.wx := State.wx_congr (by simp) (by simp) (State.flag_congr (by simp) _)
@[simp] theorem State.cell_accWrite (s : State) (w : Width) (v : Word) (k : Addr) : (s.accWrite w v).cell k = s.cell k := State.cell_congr (by simp) (by simp) k
@[simp] theorem State.is816_idxWrite (s : State) (r : IdxReg) (w : Width) (v : Word) : (s.idxWrite r w v).is816 = s.is816 := State.is816_congr (by simp)
@[simp] theorem State.emulation_idxWrite (s : State) (r : IdxReg) (w : Width) (v : Word) : (s.idxWrite r w v).emulation = s.emulation := State.emulation_congr (by simp) (by simp)
@[simp] theorem State.flag_idxWrite (s : State) (r : IdxReg) (w : Width) (v : Word) (g : Flag) : (s.idxWrite r w v).flag g = s.flag g := State.flag_congr (by simp) g
@[simp] theorem State.wm_idxWrite (s : State) (r : IdxReg) (w : Width) (v : Word) : (s.idxWrite r w v).wm = s.wm := State.wm_congr (by simp) (by simp) (State.flag_congr (by simp) _)
@[simp] theorem State.wx_idxWrite (s : State) (r : IdxReg) (w : Width) (v : Word) : (s.idxWrite r w v).wx = s.wx := State.wx_congr (by simp) (by simp) (State.flag_congr (by simp) _)
@[simp] theorem State.cell_idxWrite (s : State) (r : IdxReg) (w : Width) (v : Word) (k : Addr) : (s.idxWrite r w v).cell k = s.cell k := State.cell_congr (by simp) (by simp) k
@[simp] theorem State.is816_clearIdxHigh (s : State) : (s.clearIdxHigh).is816 = s.is816 := State.is816_congr (by simp)
@[simp] theorem State.emulation_clearIdxHigh (s : State) : (s.clearIdxHigh).emulation = s.emulation := State.emulation_congr (by simp) (by simp)
@[simp] theorem State.flag_clearIdxHigh (s : State) (g : Flag) : (s.clearIdxHigh).flag g = s.flag g := State.flag_congr (by simp) g
@[simp] theorem State.wm_clearIdxHigh (s : State) : (s.clearIdxHigh).wm = s.wm := State.wm_congr (by simp) (by simp) (State.flag_congr (by simp) _)
@[simp] theorem State.wx_clearIdxHigh (s : State) : (s.clearIdxHigh).wx = s.wx := State.wx_congr (by simp) (by simp) (State.flag_congr (by simp) _)
@[simp] theorem State.cell_clearIdxHigh (s : State) (k : Addr) : (s.clearIdxHigh).cell k = s.cell k := State.cell_congr (by simp) (by simp) k
@[simp] theorem State.is816_advance (s : State) (n : Nat) : (s.advance n).is816 = s.is816 := State.is816_congr (by simp)
@[simp] theorem State.emulation_advance (s : State) (n : Nat) : (s.advance n).emulation = s.emulation := State.emulation_congr (by simp) (by simp)
@[simp] theorem State.flag_advance (s : State) (n : Nat) (g : Flag) : (s.advance n).flag g = s.flag g := State.flag_congr (by simp) g
@[simp] theorem State.wm_advance (s : State) (n : Nat) : (s.advance n).wm = s.wm := State.wm_congr (by simp) (by simp) (State.flag_congr (by simp) _)
@[simp] theorem State.wx_advance (s : State) (n : Nat) : (s.advance n).wx = s.wx := State.wx_congr (by simp) (by simp) (State.flag_congr (by simp) _)
@[simp] theorem State.cell_advance (s : State) (n : Nat) (k : Addr) : (s.advance n).cell k = s.cell k := State.cell_congr (by simp) (by simp) k
@[simp] theorem State.is816_putCell (s : State) (a : Addr) (b : Byte) : (s.putCell a b).is816 = s.is816 := State.is816_congr (by simp)
@[simp] theorem State.emulation_putCell (s : State) (a : Addr) (b : Byte) : (s.putCell a b).emulation = s.emulation := State.emulation_congr (by simp) (by simp)
@[simp] theorem State.flag_putCell (s : State) (a : Addr) (b : Byte) (g : Flag) : (s.putCell a b).flag g = s.flag g := State.flag_congr (by simp) g
@[simp] theorem State.wm_putCell (s : State) (a : Addr) (b : Byte) : (s.putCell a b).wm = s.wm := State.wm_congr (by simp) (by simp) (State.flag_congr (by simp) _)
@[simp] theorem State.wx_putCell (s : State) (a : Addr) (b : Byte) : (s.putCell a b).wx = s.wx := State.wx_congr (by simp) (by simp) (State.flag_congr (by simp) _)
@[simp] theorem State.is816_moveS (s : State) (n : Word) : (s.moveS n).is816 = s.is816 := State.is816_congr (by simp)
@[simp] theorem State.emulation_moveS (s : State) (n : Word) : (s.moveS n).emulation = s.emulation := State.emulation_congr (by simp) (by simp)
@[simp] theorem State.flag_moveS (s : State) (n : Word) (g : Flag) : (s.moveS n).flag g = s.flag g := State.flag_congr (by simp) g
@[simp] theorem State.wm_moveS (s : State) (n : Word) : (s.moveS n).wm = s.wm := State.wm_congr (by simp) (by simp) (State.flag_congr (by simp) _)
@[simp] theorem State.wx_moveS (s : State) (n : Word) : (s.moveS n).wx = s.wx := State.wx_congr (by simp) (by simp) (State.flag_congr (by simp) _)
@[simp] theorem State.cell_moveS (s : State) (n : Word) (k : Addr) : (s.moveS n).cell k = s.cell k := State.cell_congr (by simp) (by simp) k
@[simp] theorem State.is816_loadP (s : State) (v : Byte) : (s.loadP v).is816 = s.is816 := State.is816_congr (by simp)
@[simp] theorem State.emulation_loadP (s : State) (v : Byte) : (s.loadP v).emulation = s.emulation := State.emulation_congr (by simp) (by simp)
@[simp] theorem State.cell_loadP (s : State) (v : Byte) (k : Addr) : (s.loadP v).cell k = s.cell k := State.cell_congr (by simp) (by simp) k
@[simp] theorem State.is816_latchInput (s : State) : (s.latchInput).is816 = s.is816 := State.is816_congr (by simp)
@[simp] theorem State.emulation_latchInput (s : State) : (s.latchInput).emulation = s.emulation := State.emulation_congr (by simp) (by simp)
@[simp] theorem State.flag_latchInput (s : State) (g : Flag) : (s.latchInput).flag g = s.flag g := State.flag_congr (by simp) g
@[simp] theorem State.wm_latchInput (s : State) : (s.latchInput).wm = s.wm := State.wm_congr (by simp) (by simp) (State.flag_congr (by simp) _)
@[simp] theorem State.wx_latchInput (s : State) : (s.latchInput).wx = s.wx := State.wx_congr (by simp) (by simp) (State.flag_congr (by simp) _)
@[simp] theorem State.cell_latchInput (s : State) (k : Addr) : (s.latchInput).cell k = s.cell k := State.cell_congr (by simp) (by simp) k

/-! ## States that differ in the free draws, or in memory, alone -/

@[simp] theorem State.is816_with_free (s : State) (k : Nat) : ({ s with freeIndex := k } : State).is816 = s.is816 := rfl
@[simp] theorem State.emulation_with_free (s : State) (k : Nat) : ({ s with freeIndex := k } : State).emulation = s.emulation := rfl
@[simp] theorem State.wm_with_free (s : State) (k : Nat) : ({ s with freeIndex := k } : State).wm = s.wm := rfl
@[simp] theorem State.wx_with_free (s : State) (k : Nat) : ({ s with freeIndex := k } : State).wx = s.wx := rfl
@[simp] theorem State.flag_with_free (s : State) (k : Nat) (f : Flag) : ({ s with freeIndex := k } : State).flag f = s.flag f := rfl
@[simp] theorem State.accRead_with_free (s : State) (k : Nat) (w : Width) : ({ s with freeIndex := k } : State).accRead w = s.accRead w := rfl
@[simp] theorem State.idx_with_free (s : State) (k : Nat) (r : IdxReg) : ({ s with freeIndex := k } : State).idx r = s.idx r := by cases r <;> rfl
@[simp] theorem State.succ_with_free (s : State) (k : Nat) (a : Addr) (wrap : Wrap) : ({ s with freeIndex := k } : State).succ a wrap = s.succ a wrap := by cases wrap <;> rfl
@[simp] theorem State.nextInput_with_free (s : State) (k : Nat) : ({ s with freeIndex := k } : State).nextInput = s.nextInput := rfl
@[simp] theorem State.dReg_with_free (s : State) (k : Nat) : ({ s with freeIndex := k } : State).dReg = s.dReg := rfl
@[simp] theorem State.dataBank_with_free (s : State) (k : Nat) : ({ s with freeIndex := k } : State).dataBank = s.dataBank := rfl
@[simp] theorem State.progBank_with_free (s : State) (k : Nat) : ({ s with freeIndex := k } : State).progBank = s.progBank := rfl
@[simp] theorem State.is816_with_mem (s : State) (k : Memory) : ({ s with mem := k } : State).is816 = s.is816 := rfl
@[simp] theorem State.emulation_with_mem (s : State) (k : Memory) : ({ s with mem := k } : State).emulation = s.emulation := rfl
@[simp] theorem State.wm_with_mem (s : State) (k : Memory) : ({ s with mem := k } : State).wm = s.wm := rfl
@[simp] theorem State.wx_with_mem (s : State) (k : Memory) : ({ s with mem := k } : State).wx = s.wx := rfl
@[simp] theorem State.flag_with_mem (s : State) (k : Memory) (f : Flag) : ({ s with mem := k } : State).flag f = s.flag f := rfl
@[simp] theorem State.accRead_with_mem (s : State) (k : Memory) (w : Width) : ({ s with mem := k } : State).accRead w = s.accRead w := rfl
@[simp] theorem State.idx_with_mem (s : State) (k : Memory) (r : IdxReg) : ({ s with mem := k } : State).idx r = s.idx r := by cases r <;> rfl
@[simp] theorem State.succ_with_mem (s : State) (k : Memory) (a : Addr) (wrap : Wrap) : ({ s with mem := k } : State).succ a wrap = s.succ a wrap := by cases wrap <;> rfl
@[simp] theorem State.nextInput_with_mem (s : State) (k : Memory) : ({ s with mem := k } : State).nextInput = s.nextInput := rfl
@[simp] theorem State.dReg_with_mem (s : State) (k : Memory) : ({ s with mem := k } : State).dReg = s.dReg := rfl
@[simp] theorem State.dataBank_with_mem (s : State) (k : Memory) : ({ s with mem := k } : State).dataBank = s.dataBank := rfl
@[simp] theorem State.progBank_with_mem (s : State) (k : Memory) : ({ s with mem := k } : State).progBank = s.progBank := rfl
@[simp] theorem State.cell_with_free (s : State) (k : Nat) (a : Addr) : ({ s with freeIndex := k } : State).cell a = s.cell a := rfl

/-! ## Flags after a flag is written -/

theorem Flag.bit_inj {f g : Flag} (h : f.bit = g.bit) : f = g := by cases f <;> cases g <;> simp_all [Flag.bit]

theorem Flag.bit_lt (f : Flag) : f.bit < 8 := by cases f <;> decide

/-- Writing one flag sets that flag and keeps the seven others. -/
theorem getFlag_putFlag (p : Byte) (f g : Flag) (b : Bool) :
    getFlag (putFlag p f b) g = if g = f then b else getFlag p g := by
  have hg := Flag.bit_lt g
  by_cases h : g = f
  · subst h
    cases b <;> simp [getFlag, putFlag, hg]
  · have hne : g.bit ≠ f.bit := fun he => h (Flag.bit_inj he)
    cases b <;> simp [getFlag, putFlag, h, hg] <;> omega

@[simp] theorem State.flag_setFlag (s : State) (f g : Flag) (b : Bool) :
    (s.setFlag f b).flag g = if g = f then b else s.flag g := getFlag_putFlag s.p f g b

@[simp] theorem State.flag_drawFlag (s : State) (f g : Flag) :
    (s.drawFlag f).flag g = if g = f then s.draw 1 == 1 else s.flag g := by
  unfold State.drawFlag; rw [State.flag_drawn, State.flag_setFlag]

@[simp] theorem State.flag_setNZ (s : State) (w : Width) (v : Word) (g : Flag) :
    (s.setNZ w v).flag g = if g = .z then trunc w v == 0 else if g = .n then msb w v else s.flag g := by
  simp [State.setNZ]

@[simp] theorem State.wm_setNZ (s : State) (w : Width) (v : Word) : (s.setNZ w v).wm = s.wm :=
  State.wm_congr (by simp) (by simp) (by simp)
@[simp] theorem State.wx_setNZ (s : State) (w : Width) (v : Word) : (s.setNZ w v).wx = s.wx :=
  State.wx_congr (by simp) (by simp) (by simp)

/-- A status byte is its eight flags. -/
theorem status_ext {p q : Byte} (h : ∀ f, getFlag p f = getFlag q f) : p = q := by
  have h7 := h .n; have h6 := h .v; have h5 := h .m; have h4 := h .x
  have h3 := h .d; have h2 := h .i; have h1 := h .z; have h0 := h .c
  simp only [getFlag, Flag.bit] at *
  ext k hk
  rw [← BitVec.getLsbD_eq_getElem, ← BitVec.getLsbD_eq_getElem]
  have : k = 0 ∨ k = 1 ∨ k = 2 ∨ k = 3 ∨ k = 4 ∨ k = 5 ∨ k = 6 ∨ k = 7 := by omega
  rcases this with rfl | rfl | rfl | rfl | rfl | rfl | rfl | rfl <;> assumption

end Sys2Proof.Machine
end

