-- ==== Sys2Proof/Laws/Memory.lean ====
section
/-! SUPPORT. Memory: reading after writing, the canonical form and that every operation keeps it, and for each access
operation one lemma that says everything it can answer. -/

namespace Sys2Proof.Machine

/-! ## The list of cells -/

theorem Memory.read_cons (a : Nat) (b : Byte) (m : Memory) (k : Nat) (h : m.read a = Memory.unlisted) :
    (Memory.cons a b m).read k = if a = k then b else m.read k := by
  unfold Memory.cons
  split
  · split
    · subst_vars; exact h
    · rfl
  · simp only [Memory.read]

/-- In a memory whose addresses start at `lo`, an address below `lo` is unlisted. -/
theorem Memory.read_below : ∀ (m : Memory) (lo a : Nat), Memory.wfFrom lo m = true → a < lo → m.read a = Memory.unlisted
  | [], _, _, _, _ => rfl
  | (k, v) :: m, lo, a, hw, ha => by
    simp only [Memory.wfFrom, Bool.and_eq_true, decide_eq_true_eq] at hw
    have hk : k ≠ a := by omega
    simp only [Memory.read, hk, if_false]
    exact Memory.read_below m (k + 1) a hw.2 (by omega)

theorem Memory.wfFrom_mono : ∀ (m : Memory) {lo lo' : Nat}, Memory.wfFrom lo' m = true → lo ≤ lo' → Memory.wfFrom lo m = true
  | [], _, _, _, _ => rfl
  | (k, v) :: m, lo, lo', hw, h => by
    simp only [Memory.wfFrom, Bool.and_eq_true, decide_eq_true_eq] at hw ⊢
    exact ⟨⟨⟨by omega, hw.1.1.2⟩, hw.1.2⟩, hw.2⟩

theorem Memory.wfFrom_cons {lo a : Nat} {b : Byte} {m : Memory} (hlo : lo ≤ a) (ha : a < 2 ^ 24)
    (hm : Memory.wfFrom (a + 1) m = true) : Memory.wfFrom lo (Memory.cons a b m) = true := by
  unfold Memory.cons
  split
  · exact Memory.wfFrom_mono m hm (by omega)
  · next hb => simp [Memory.wfFrom, hlo, hb, hm]; omega

theorem Memory.wfFrom_erase : ∀ (m : Memory) (lo a : Nat), Memory.wfFrom lo m = true →
    Memory.wfFrom lo (m.erase a) = true
  | [], _, _, _ => rfl
  | (k, v) :: m, lo, a, hw => by
    simp only [Memory.wfFrom, Bool.and_eq_true, decide_eq_true_eq] at hw
    have ih := Memory.wfFrom_erase m (k + 1) a hw.2
    simp only [Memory.erase]
    split
    · exact Memory.wfFrom_mono _ ih (by omega)
    · simp only [Memory.wfFrom, Bool.and_eq_true, decide_eq_true_eq]
      exact ⟨hw.1, ih⟩

theorem Memory.wfFrom_insert : ∀ (m : Memory) (lo a : Nat) (b : Byte), Memory.wfFrom lo m = true →
    m.read a = Memory.unlisted → lo ≤ a → a < 2 ^ 24 → Memory.wfFrom lo (m.insert a b) = true
  | [], _, _, _, _, _, hlo, ha => Memory.wfFrom_cons hlo ha rfl
  | (k, v) :: m, lo, a, b, hw, hr, hlo, ha => by
    simp only [Memory.wfFrom, Bool.and_eq_true, decide_eq_true_eq] at hw
    obtain ⟨⟨⟨h1, h2⟩, h3⟩, h4⟩ := hw
    have hk : k ≠ a := fun h => h3 (by simpa [Memory.read, h] using hr)
    simp only [Memory.read, hk, if_false] at hr
    simp only [Memory.insert]
    split
    · next hlt =>
      simp only [Memory.wfFrom, Bool.and_eq_true, decide_eq_true_eq]
      exact ⟨⟨⟨h1, h2⟩, h3⟩, Memory.wfFrom_insert m (k + 1) a b h4 hr (by omega) ha⟩
    · next hlt =>
      refine Memory.wfFrom_cons hlo ha ?_
      simp only [Memory.wfFrom, Bool.and_eq_true, decide_eq_true_eq]
      exact ⟨⟨⟨by omega, h2⟩, h3⟩, h4⟩

theorem Memory.read_erase : ∀ (m : Memory) (a k : Nat),
    (m.erase a).read k = if a = k then Memory.unlisted else m.read k
  | [], a, k => by simp [Memory.erase, Memory.read]
  | (j, v) :: m, a, k => by
    have ih := Memory.read_erase m a k
    simp only [Memory.erase]
    split
    · next h => subst h; rw [ih]; simp only [Memory.read]; split <;> rfl
    · next h =>
      simp only [Memory.read, ih]
      split
      · next hj => rw [if_neg (by omega)]
      · rfl

theorem Memory.read_insert : ∀ (m : Memory) (a : Nat) (b : Byte) (k : Nat), m.read a = Memory.unlisted →
    (m.insert a b).read k = if a = k then b else m.read k
  | [], a, b, k, _ => Memory.read_cons a b [] k rfl
  | (j, v) :: m, a, b, k, hr => by
    simp only [Memory.insert]
    split
    · next hlt =>
      have hj : j ≠ a := by omega
      simp only [Memory.read, hj, if_false] at hr
      simp only [Memory.read, Memory.read_insert m a b k hr]
      split
      · next hk => rw [if_neg (by omega)]
      · rfl
    · exact Memory.read_cons a b _ k hr

/-- A write keeps the canonical form. -/
theorem Memory.wf_write {m : Memory} (h : m.wf = true) {a : Nat} (ha : a < 2 ^ 24) (b : Byte) : (m.write a b).wf = true :=
  Memory.wfFrom_insert _ 0 a b (Memory.wfFrom_erase m 0 a h) (by simp [Memory.read_erase]) (Nat.zero_le a) ha

theorem Memory.wf_nil : Memory.wf [] = true := rfl

theorem Memory.wf_reset : State.reset.mem.wf = true := rfl

/-- Reading after a write: the byte written at its address, every other address as before. -/
theorem Memory.read_write (m : Memory) (a : Nat) (b : Byte) (k : Nat) :
    (m.write a b).read k = if a = k then b else m.read k := by
  unfold Memory.write
  rw [Memory.read_insert _ _ _ _ (by simp [Memory.read_erase]), Memory.read_erase]
  split <;> rfl

/-- Canonical memories that read the same are the same list. -/
theorem Memory.ext_of_wf : ∀ (m n : Memory) (lo : Nat), Memory.wfFrom lo m = true → Memory.wfFrom lo n = true →
    (∀ a, m.read a = n.read a) → m = n
  | [], [], _, _, _, _ => rfl
  | [], (k, v) :: n, lo, _, hn, h => by
    simp only [Memory.wfFrom, Bool.and_eq_true, decide_eq_true_eq] at hn
    have := h k
    simp only [Memory.read, if_true] at this
    exact absurd this.symm hn.1.2
  | (k, v) :: m, [], lo, hm, _, h => by
    simp only [Memory.wfFrom, Bool.and_eq_true, decide_eq_true_eq] at hm
    have := h k
    simp only [Memory.read, if_true] at this
    exact absurd this hm.1.2
  | (k, v) :: m, (j, u) :: n, lo, hm, hn, h => by
    simp only [Memory.wfFrom, Bool.and_eq_true, decide_eq_true_eq] at hm hn
    have hkj : k = j := by
      rcases Nat.lt_trichotomy k j with hlt | heq | hgt
      · have := h k
        simp only [Memory.read, if_true, if_neg (by omega : ¬j = k)] at this
        rw [Memory.read_below n (j + 1) k hn.2 (by omega)] at this
        exact absurd this hm.1.2
      · exact heq
      · have := h j
        simp only [Memory.read, if_true, if_neg (by omega : ¬k = j)] at this
        rw [Memory.read_below m (k + 1) j hm.2 (by omega)] at this
        exact absurd this.symm hn.1.2
    subst hkj
    have hvu : v = u := by simpa [Memory.read] using h k
    subst hvu
    refine congrArg _ (Memory.ext_of_wf m n (k + 1) hm.2 hn.2 fun a => ?_)
    by_cases ha : k = a
    · subst ha
      rw [Memory.read_below m _ _ hm.2 (by omega), Memory.read_below n _ _ hn.2 (by omega)]
    · simpa [Memory.read, ha] using h a

end Sys2Proof.Machine
end

