-- ==== Sys2Proof/Laws/Access.lean ====
section
/-! SUPPORT. The access operations of 20_memory.md: for each one, everything it can answer. A read changes nothing but the
count of free draws; a write changes nothing but memory. -/

namespace Sys2Proof.Machine

/-! ## `Access` -/

@[simp] theorem Access.bind_ok {α β : Type} (a : α) (s : State) (f : α → State → Access β) : (Access.ok a s).bind f = f a s := rfl
@[simp] theorem Access.bind_stop {α β : Type} (r : Refusal) (f : α → State → Access β) : (Access.stop r).bind f = .stop r := rfl
@[simp] theorem Access.andThen_ok {α : Type} (a : α) (s : State) (f : α → State → Result) : (Access.ok a s).andThen f = f a s := rfl
@[simp] theorem Access.andThen_stop {α : Type} (r : Refusal) (f : α → State → Result) :
    (Access.stop r : Access α).andThen f = .refused r := rfl

/-- A chain that answers: its first part answered, and so did the rest. -/
theorem Access.bind_eq_ok {α β : Type} {x : Access α} {f : α → State → Access β} {b : β} {t : State}
    (h : x.bind f = .ok b t) : ∃ a s, x = .ok a s ∧ f a s = .ok b t := by
  cases x with
  | ok a s => exact ⟨a, s, rfl, h⟩
  | stop r => cases h

theorem Access.andThen_eq_next {α : Type} {x : Access α} {f : α → State → Result} {t : State}
    (h : x.andThen f = .next t) : ∃ a s, x = .ok a s ∧ f a s = .next t := by
  cases x with
  | ok a s => exact ⟨a, s, rfl, h⟩
  | stop r => cases h

/-! ## One byte (20_memory.md R68) -/

@[simp] theorem kindAt_busAddr_congr {s t : State} (h : t.cfg = s.cfg) (a : Addr) : kindAt t.cfg a = kindAt s.cfg a := by rw [h]

theorem busAddr_lt (cfg : Config) (a : Addr) : (busAddr cfg a).toNat < 2 ^ 24 := (busAddr cfg a).isLt

/-- The bytes of memory after one is put: that one at its address (and wherever the bus shows the same address), the
others as before. -/
theorem State.cell_putCell (s : State) (a k : Addr) (b : Byte) :
    (s.putCell a b).cell k = if busAddr s.cfg a = busAddr s.cfg k then b else s.cell k := by
  simp only [State.cell, State.putCell_cfg, State.putCell_mem, Memory.read_write]
  by_cases h : busAddr s.cfg a = busAddr s.cfg k
  · simp [h]
  · have : (busAddr s.cfg a).toNat ≠ (busAddr s.cfg k).toNat := fun he => h (BitVec.eq_of_toNat_eq he)
    simp [h, this]

@[simp] theorem State.cell_putCell_self (s : State) (a : Addr) (b : Byte) : (s.putCell a b).cell a = b := by
  simp [State.cell_putCell]

theorem State.wf_putCell {s : State} (h : s.mem.wf = true) (a : Addr) (b : Byte) : (s.putCell a b).mem.wf = true := by
  rw [State.putCell_mem]; exact Memory.wf_write h (busAddr_lt _ _) b

/-- A read of RAM or ROM gives the byte that memory holds and changes nothing. -/
theorem read8_of_backed {s : State} {a : Addr} (h : Backed s a) : read8 a s = .ok (s.cell a) s := by
  unfold read8; rcases h with h | h <;> simp [h]

/-- Everything a byte read can answer. -/
theorem read8_eq_ok {a : Addr} {s t : State} {b : Byte} (h : read8 a s = .ok b t) :
    (Backed s a ∧ b = s.cell a ∧ t = s) ∨ (kindAt s.cfg a = .unmapped ∧ b = s.draw 8 ∧ t = s.drawn) := by
  unfold read8 at h
  split at h
  · next hk => cases h; exact .inl ⟨.inl hk, rfl, rfl⟩
  · next hk => cases h; exact .inl ⟨.inr hk, rfl, rfl⟩
  · next hk => cases h; exact .inr ⟨hk, rfl, rfl⟩
  · cases h

/-- What a read leaves: the same state, but for how many free values have been drawn. -/
def OnlyDraws (s t : State) : Prop := t = { s with freeIndex := t.freeIndex }

theorem OnlyDraws.refl (s : State) : OnlyDraws s s := rfl

theorem OnlyDraws.trans {s t u : State} (h1 : OnlyDraws s t) (h2 : OnlyDraws t u) : OnlyDraws s u := by
  unfold OnlyDraws at *; rw [h1] at h2; exact h2

theorem onlyDraws_drawn (s : State) : OnlyDraws s s.drawn := rfl

theorem read8_onlyDraws {a : Addr} {s t : State} {b : Byte} (h : read8 a s = .ok b t) : OnlyDraws s t := by
  rcases read8_eq_ok h with ⟨_, _, rfl⟩ | ⟨_, _, rfl⟩
  · exact OnlyDraws.refl _
  · exact onlyDraws_drawn s

theorem read8_notDevice {a : Addr} {s t : State} {b : Byte} (h : read8 a s = .ok b t) : NotDevice s a := by
  rcases read8_eq_ok h with ⟨hb, _, _⟩ | ⟨hu, _, _⟩
  · rcases hb with hb | hb <;> simp [NotDevice, hb]
  · simp [NotDevice, hu]

/-- A byte read is refused only at a device. -/
theorem read8_ok_of_notDevice {a : Addr} {s : State} (h : NotDevice s a) : ∃ b t, read8 a s = .ok b t := by
  unfold read8
  cases hk : kindAt s.cfg a with
  | ram => exact ⟨_, _, rfl⟩
  | rom => exact ⟨_, _, rfl⟩
  | unmapped => exact ⟨_, _, rfl⟩
  | device => exact absurd hk h

theorem read8_eq_stop {a : Addr} {s : State} {r : Refusal} (h : read8 a s = .stop r) :
    r = .deviceAccessSequence a ∧ kindAt s.cfg a = .device := by
  unfold read8 at h
  split at h <;> simp_all

/-- What a store of one byte leaves. -/
def stored8 (a : Addr) (b : Byte) (s : State) : State := if kindAt s.cfg a = .ram then s.putCell a b else s

theorem write8_of_notDevice {a : Addr} {s : State} (b : Byte) (h : NotDevice s a) :
    write8 a b s = .ok () (stored8 a b s) := by
  unfold write8 stored8
  cases hk : kindAt s.cfg a <;> simp_all [NotDevice]

/-- Everything a byte write can answer. -/
theorem write8_eq_ok {a : Addr} {b : Byte} {s t : State} {u : Unit} (h : write8 a b s = .ok u t) :
    NotDevice s a ∧ t = stored8 a b s := by
  unfold write8 at h
  unfold stored8 NotDevice
  split at h <;> first | (cases h; done) | (injection h with h1 h2; subst_vars; simp_all)

theorem write8_eq_stop {a : Addr} {b : Byte} {s : State} {r : Refusal} (h : write8 a b s = .stop r) :
    r = .deviceAccessSequence a ∧ kindAt s.cfg a = .device := by
  unfold write8 at h
  split at h <;> simp_all

/-- What a write leaves: the same state, but for memory. -/
def OnlyMem (s t : State) : Prop := t = { s with mem := t.mem }

theorem OnlyMem.refl (s : State) : OnlyMem s s := rfl

theorem OnlyMem.trans {s t u : State} (h1 : OnlyMem s t) (h2 : OnlyMem t u) : OnlyMem s u := by
  unfold OnlyMem at *; rw [h1] at h2; exact h2

theorem onlyMem_putCell (s : State) (a : Addr) (b : Byte) : OnlyMem s (s.putCell a b) := rfl

theorem onlyMem_stored8 (a : Addr) (b : Byte) (s : State) : OnlyMem s (stored8 a b s) := by
  unfold stored8; split
  · exact onlyMem_putCell s a b
  · exact OnlyMem.refl s

@[simp] theorem stored8_cfg (a : Addr) (b : Byte) (s : State) : (stored8 a b s).cfg = s.cfg := by
  rw [onlyMem_stored8 a b s]

theorem cell_stored8 (a k : Addr) (b : Byte) (s : State) :
    (stored8 a b s).cell k = if busAddr s.cfg a = busAddr s.cfg k ∧ kindAt s.cfg a = .ram then b else s.cell k := by
  unfold stored8
  by_cases h : kindAt s.cfg a = .ram <;> simp [h, State.cell_putCell]

/-- The kind at an address is that of the address on the bus. -/
theorem kindAt_of_busAddr {cfg : Config} {a b : Addr} (h : busAddr cfg a = busAddr cfg b) : kindAt cfg a = kindAt cfg b := by
  unfold kindAt; rw [h]

theorem stored_stored8 (a : Addr) (b : Byte) (s : State) : Stored s (stored8 a b s) a b := by
  unfold Stored; rw [cell_stored8]; simp

theorem memBut_stored8 (a : Addr) (b : Byte) (s : State) : MemBut [a] s (stored8 a b s) := by
  intro k hk
  have := hk a (by simp)
  rw [cell_stored8]; simp [this]

theorem wf_stored8 {s : State} (h : s.mem.wf = true) (a : Addr) (b : Byte) : (stored8 a b s).mem.wf = true := by
  unfold stored8; split
  · exact State.wf_putCell h a b
  · exact h

/-! ## No device anywhere -/

theorem kindIn_ne_device {rs : List Region} (h : ∀ r ∈ rs, r.kind ≠ .device) (a : Nat) : kindIn rs a ≠ .device := by
  induction rs with
  | nil => simp [kindIn]
  | cons r rs ih =>
    simp only [kindIn]
    split
    · exact h r (by simp)
    · exact ih fun q hq => h q (by simp [hq])

theorem NoDevice.notDevice {s : State} (h : NoDevice s.cfg) (a : Addr) : NotDevice s a := kindIn_ne_device h _

/-! ## Successors (20_memory.md R64) -/

/-- The second byte of a datum never lies where the first does, on the bus either. -/
theorem busAddr_succ_ne (s : State) (cfg : Config) (a : Addr) (wrap : Wrap) : busAddr cfg (s.succ a wrap) ≠ busAddr cfg a := by
  have key : (s.succ a wrap).toNat % 65536 ≠ a.toNat % 65536 := by
    have one24 : (1 : Addr).toNat = 1 := rfl
    have one16 : (1 : Word).toNat = 1 := rfl
    have one8 : (1 : Byte).toNat = 1 := rfl
    have := a.isLt
    cases wrap
    · simp only [State.succ]
      split
      · rw [BitVec.toNat_add, one24]; omega
      · rw [toNat_addrOf, toNat_bank, BitVec.toNat_add, toNat_offset, one16]; omega
    · rw [State.succ, toNat_addrOf, toNat_bank, BitVec.toNat_add, toNat_offset, one16]; omega
    · rw [State.succ, toNat_addrOf, toNat_bank, toNat_wordOf, toNat_highByte, BitVec.toNat_add, toNat_lowByte, toNat_offset,
        one8]
      omega
  intro h
  apply key
  have h' := congrArg BitVec.toNat h
  unfold busAddr at h'
  split at h'
  · simpa using h'
  · rw [h']

/-! ## Several bytes -/

theorem read16_of_backed {s : State} {a : Addr} {wrap : Wrap} (h0 : Backed s a) (h1 : Backed s (s.succ a wrap)) :
    read16 a wrap s = .ok (wordOf (s.cell a) (s.cell (s.succ a wrap))) s := by
  unfold read16; rw [read8_of_backed h0]; simp only [Access.bind_ok]; rw [read8_of_backed h1]; rfl

theorem read24_of_backed {s : State} {a : Addr} {wrap : Wrap} (h0 : Backed s a) (h1 : Backed s (s.succ a wrap))
    (h2 : Backed s (s.succ (s.succ a wrap) wrap)) :
    read24 a wrap s =
      .ok (addrOf (s.cell (s.succ (s.succ a wrap) wrap)) (wordOf (s.cell a) (s.cell (s.succ a wrap)))) s := by
  unfold read24; rw [read16_of_backed h0 h1]; simp only [Access.bind_ok]; rw [read8_of_backed h2]; rfl

theorem read16_onlyDraws {a : Addr} {wrap : Wrap} {s t : State} {v : Word} (h : read16 a wrap s = .ok v t) : OnlyDraws s t := by
  obtain ⟨_, _, h1, h⟩ := Access.bind_eq_ok h
  obtain ⟨_, _, h2, h⟩ := Access.bind_eq_ok h
  cases h
  exact (read8_onlyDraws h1).trans (read8_onlyDraws h2)

theorem read24_onlyDraws {a : Addr} {wrap : Wrap} {s t : State} {v : Addr} (h : read24 a wrap s = .ok v t) : OnlyDraws s t := by
  obtain ⟨_, _, h1, h⟩ := Access.bind_eq_ok h
  obtain ⟨_, _, h2, h⟩ := Access.bind_eq_ok h
  cases h
  exact (read16_onlyDraws h1).trans (read8_onlyDraws h2)

theorem OnlyDraws.cfg {s t : State} (h : OnlyDraws s t) : t.cfg = s.cfg := by rw [h]
theorem OnlyDraws.mem {s t : State} (h : OnlyDraws s t) : t.mem = s.mem := by rw [h]
theorem OnlyMem.cfg {s t : State} (h : OnlyMem s t) : t.cfg = s.cfg := by rw [h]

theorem OnlyDraws.notDevice {s t : State} (h : OnlyDraws s t) {a : Addr} : NotDevice t a ↔ NotDevice s a := by
  simp [NotDevice, h.cfg]

/-- A load changes nothing and gives data of its width. -/
theorem load_onlyDraws {w : Width} {a : Addr} {wrap : Wrap} {s t : State} {v : Word} (h : load w a wrap s = .ok v t) :
    OnlyDraws s t := by
  cases w
  · obtain ⟨_, _, h1, h⟩ := Access.bind_eq_ok h
    cases h; exact read8_onlyDraws h1
  · exact read16_onlyDraws h

theorem load_lt {w : Width} {a : Addr} {wrap : Wrap} {s t : State} {v : Word} (h : load w a wrap s = .ok v t) :
    v.toNat < modulus w := by
  cases w
  · obtain ⟨b, _, _, h⟩ := Access.bind_eq_ok h
    cases h; have := b.isLt; simp; omega
  · exact v.isLt

/-- A load that answers has read no device, so a store to the same place is not refused. -/
theorem load_notDevice {w : Width} {a : Addr} {wrap : Wrap} {s t : State} {v : Word} (h : load w a wrap s = .ok v t) :
    ∀ b ∈ storedBytes w a wrap s, NotDevice s b := by
  cases w
  · obtain ⟨_, _, h1, _⟩ := Access.bind_eq_ok h
    simpa [storedBytes] using read8_notDevice h1
  · obtain ⟨_, s1, h1, h⟩ := Access.bind_eq_ok h
    obtain ⟨_, _, h2, _⟩ := Access.bind_eq_ok h
    have h3 := read8_notDevice h2
    rw [OnlyDraws.notDevice (read8_onlyDraws h1)] at h3
    simp only [storedBytes, List.mem_cons, List.not_mem_nil, or_false]
    rintro b (rfl | rfl)
    · exact read8_notDevice h1
    · exact h3

/-- What a store leaves. -/
def storedState (w : Width) (a : Addr) (wrap : Wrap) (v : Word) (s : State) : State :=
  match w with
  | .w8 => stored8 a (lowByte v) s
  | .w16 => stored8 (s.succ a wrap) (highByte v) (stored8 a (lowByte v) s)

theorem store_of_notDevice {w : Width} {a : Addr} {wrap : Wrap} {s : State} (v : Word)
    (h : ∀ b ∈ storedBytes w a wrap s, NotDevice s b) : store w a wrap v s = .ok () (storedState w a wrap v s) := by
  cases w
  · exact write8_of_notDevice _ (h a (by simp [storedBytes]))
  · have h0 := h a (by simp [storedBytes])
    have h1 := h (s.succ a wrap) (by simp [storedBytes])
    unfold store
    rw [write8_of_notDevice _ h0, Access.bind_ok]
    exact write8_of_notDevice _ (by simpa [NotDevice] using h1)

/-- Everything a store can answer. -/
theorem store_eq_ok {w : Width} {a : Addr} {wrap : Wrap} {v : Word} {s t : State} {u : Unit}
    (h : store w a wrap v s = .ok u t) :
    (∀ b ∈ storedBytes w a wrap s, NotDevice s b) ∧ t = storedState w a wrap v s := by
  cases w
  · obtain ⟨h0, rfl⟩ := write8_eq_ok h
    exact ⟨by simpa [storedBytes] using h0, rfl⟩
  · obtain ⟨_, _, h1, h⟩ := Access.bind_eq_ok h
    obtain ⟨h0, rfl⟩ := write8_eq_ok h1
    obtain ⟨h2, rfl⟩ := write8_eq_ok h
    refine ⟨?_, rfl⟩
    simp only [storedBytes, List.mem_cons, List.not_mem_nil, or_false]
    rintro b (rfl | rfl)
    · exact h0
    · simpa [NotDevice] using h2

theorem onlyMem_storedState (w : Width) (a : Addr) (wrap : Wrap) (v : Word) (s : State) :
    OnlyMem s (storedState w a wrap v s) := by
  cases w
  · exact onlyMem_stored8 _ _ _
  · exact (onlyMem_stored8 _ _ _).trans (onlyMem_stored8 _ _ _)

theorem wf_storedState {s : State} (h : s.mem.wf = true) (w : Width) (a : Addr) (wrap : Wrap) (v : Word) :
    (storedState w a wrap v s).mem.wf = true := by
  cases w
  · exact wf_stored8 h _ _
  · exact wf_stored8 (wf_stored8 h _ _) _ _

/-- The bytes of memory after a store. -/
theorem stored_storedState (w : Width) (a : Addr) (wrap : Wrap) (v : Word) (s : State) :
    Stored s (storedState w a wrap v s) a (lowByte v) ∧
      (w = .w16 → Stored s (storedState w a wrap v s) (s.succ a wrap) (highByte v)) := by
  cases w
  · exact ⟨stored_stored8 _ _ _, fun h => by cases h⟩
  · have hne := busAddr_succ_ne s s.cfg a wrap
    refine ⟨?_, fun _ => ?_⟩
    · simp only [Stored, storedState, cell_stored8, stored8_cfg, hne, false_and, if_false, true_and]
    · simp [Stored, storedState, cell_stored8, Ne.symm hne]

theorem memBut_storedState (w : Width) (a : Addr) (wrap : Wrap) (v : Word) (s : State) :
    MemBut (storedBytes w a wrap s) s (storedState w a wrap v s) := by
  cases w
  · exact memBut_stored8 _ _ _
  · intro k hk
    have h0 := hk a (by simp [storedBytes])
    have h1 := hk (s.succ a wrap) (by simp [storedBytes])
    simp [storedState, cell_stored8, h0, h1]

end Sys2Proof.Machine
end

