-- ==== Sys2Proof/Laws/Ops.lean ====
section
/-! SUPPORT. For each shared operation over memory, operands, the stack and control, what every answer of it has in common:
it keeps the launch, and it is refused only at a device; and for the reads and the operands, that they change nothing. -/

namespace Sys2Proof.Machine

/-! ## Answers that keep the launch and are refused only at a device -/

/-- The refusal that a device causes. -/
def ByDevice (cfg : Config) (r : Refusal) : Prop := ∃ a, r = .deviceAccessSequence a ∧ kindAt cfg a = .device

/-- An access from a state with launch `cfg` keeps the launch, and is refused only at a device. -/
def Access.Sound {α : Type} (cfg : Config) : Access α → Prop
  | .ok _ t => t.cfg = cfg
  | .stop r => ByDevice cfg r

/-- The same of an instruction; it never faults. -/
def SoundResult (cfg : Config) : Result → Prop
  | .next t => t.cfg = cfg
  | .fault _ => False
  | .refused r => ByDevice cfg r

theorem Access.Sound.bind {α β : Type} {cfg : Config} {x : Access α} {f : α → State → Access β} (hx : x.Sound cfg)
    (hf : ∀ a s, s.cfg = cfg → (f a s).Sound cfg) : (x.bind f).Sound cfg := by
  cases x with
  | ok a s => exact hf a s hx
  | stop r => exact hx

theorem Access.Sound.andThen {α : Type} {cfg : Config} {x : Access α} {f : α → State → Result} (hx : x.Sound cfg)
    (hf : ∀ a s, s.cfg = cfg → SoundResult cfg (f a s)) : SoundResult cfg (x.andThen f) := by
  cases x with
  | ok a s => exact hf a s hx
  | stop r => exact hx

theorem Access.Sound.ok {α : Type} (a : α) {cfg : Config} {s : State} (h : s.cfg = cfg) : (Access.ok a s).Sound cfg := h

/-- Where no device stands, a sound access answers. -/
theorem Access.Sound.exists_ok {α : Type} {cfg : Config} {x : Access α} (hx : x.Sound cfg) (h : NoDevice cfg) :
    ∃ a t, x = .ok a t := by
  cases x with
  | ok a s => exact ⟨a, s, rfl⟩
  | stop r =>
    obtain ⟨a, _, ha⟩ := hx
    exact absurd ha (kindIn_ne_device h _)

/-- Where no device stands, a sound instruction has a next state. -/
theorem SoundResult.exists_next {cfg : Config} {x : Result} (hx : SoundResult cfg x) (h : NoDevice cfg) :
    ∃ t, x = .next t := by
  cases x with
  | next s => exact ⟨s, rfl⟩
  | fault r => exact hx.elim
  | refused r =>
    obtain ⟨a, _, ha⟩ := hx
    exact absurd ha (kindIn_ne_device h _)

theorem read8_sound (a : Addr) (s : State) : (read8 a s).Sound s.cfg := by
  cases h : read8 a s with
  | ok b t => exact (read8_onlyDraws h).cfg
  | stop r => exact ⟨a, read8_eq_stop h⟩

theorem write8_sound (a : Addr) (b : Byte) (s : State) : (write8 a b s).Sound s.cfg := by
  cases h : write8 a b s with
  | ok u t => obtain ⟨_, rfl⟩ := write8_eq_ok h; exact stored8_cfg a b s
  | stop r => exact ⟨a, write8_eq_stop h⟩

theorem read8_sound' {cfg : Config} (a : Addr) {s : State} (h : s.cfg = cfg) : (read8 a s).Sound cfg := h ▸ read8_sound a s
theorem write8_sound' {cfg : Config} (a : Addr) (b : Byte) {s : State} (h : s.cfg = cfg) : (write8 a b s).Sound cfg :=
  h ▸ write8_sound a b s

theorem read16_sound {cfg : Config} (a : Addr) (wrap : Wrap) {s : State} (h : s.cfg = cfg) : (read16 a wrap s).Sound cfg :=
  (read8_sound' a h).bind fun _ _ h1 => (read8_sound' _ h1).bind fun _ _ h2 => h2

theorem read24_sound {cfg : Config} (a : Addr) (wrap : Wrap) {s : State} (h : s.cfg = cfg) : (read24 a wrap s).Sound cfg :=
  (read16_sound a wrap h).bind fun _ _ h1 => (read8_sound' _ h1).bind fun _ _ h2 => h2

theorem load_sound {cfg : Config} (w : Width) (a : Addr) (wrap : Wrap) {s : State} (h : s.cfg = cfg) :
    (load w a wrap s).Sound cfg := by
  cases w
  · exact (read8_sound' a h).bind fun _ _ h1 => h1
  · exact read16_sound a wrap h

theorem store_sound {cfg : Config} (w : Width) (a : Addr) (wrap : Wrap) (v : Word) {s : State} (h : s.cfg = cfg) :
    (store w a wrap v s).Sound cfg := by
  cases w
  · exact write8_sound' a _ h
  · exact (write8_sound' a _ h).bind fun _ _ h1 => write8_sound' _ _ h1

/-! ## Operands (40_addressing_modes.md, 41_arithmetic.md R160) -/

theorem effAddr_sound {cfg : Config} (m : Mode) {s : State} (h : s.cfg = cfg) : (effAddr m s).Sound cfg := by
  cases m <;> first
    | exact h
    | exact (read16_sound _ _ h).bind fun _ _ h1 => h1
    | exact (read24_sound _ _ h).bind fun _ _ h1 => h1

theorem operand_sound {cfg : Config} (src : Source) (w : Width) {s : State} (h : s.cfg = cfg) :
    (operand src w s).Sound cfg := by
  cases src with
  | imm k => exact h
  | mem m => exact (effAddr_sound m h).bind fun _ _ h1 => load_sound w _ _ h1

/-- Forming an effective address changes nothing. -/
theorem effAddr_onlyDraws {m : Mode} {s t : State} {ea : Ea} (h : effAddr m s = .ok ea t) : OnlyDraws s t := by
  cases m <;> first
    | (cases h; exact OnlyDraws.refl _)
    | (obtain ⟨_, _, h1, h2⟩ := Access.bind_eq_ok h; cases h2; exact read16_onlyDraws h1)
    | (obtain ⟨_, _, h1, h2⟩ := Access.bind_eq_ok h; cases h2; exact read24_onlyDraws h1)

/-- An operand read from memory: an effective address, then a load of the width. -/
theorem operand_mem_eq_ok {md : Mode} {w : Width} {s t : State} {m : Word} (h : operand (.mem md) w s = .ok m t) :
    ∃ ea s1, effAddr md s = .ok ea s1 ∧ load w ea.addr ea.wrap s1 = .ok m t := Access.bind_eq_ok h

/-! ## The shapes of the data instructions -/

theorem withOperand_of_ok {src : Source} {w : Width} {effect : Word → State → State} {s s1 : State} {m : Word}
    (h : operand src w s = .ok m s1) : withOperand src w effect s = .next ((effect m s1).advance (src.length w)) := by
  unfold withOperand; rw [h]; rfl

/-- Everything an instruction with an operand can answer. -/
theorem withOperand_eq_next {src : Source} {w : Width} {effect : Word → State → State} {s t : State}
    (h : withOperand src w effect s = .next t) :
    ∃ m s1, operand src w s = .ok m s1 ∧ t = (effect m s1).advance (src.length w) := by
  obtain ⟨m, s1, h1, h2⟩ := Access.andThen_eq_next h
  cases h2; exact ⟨m, s1, h1, rfl⟩

theorem storeTo_of_ok {md : Mode} {w : Width} {v : Word} {s s1 : State} {ea : Ea} (h : effAddr md s = .ok ea s1)
    (hd : ∀ b ∈ storedBytes w ea.addr ea.wrap s1, NotDevice s1 b) :
    storeTo md w v s = .next ((storedState w ea.addr ea.wrap v s1).advance md.length) := by
  unfold storeTo; rw [h, Access.andThen_ok, store_of_notDevice v hd]; rfl

/-- Everything a store instruction can answer. -/
theorem storeTo_eq_next {md : Mode} {w : Width} {v : Word} {s t : State} (h : storeTo md w v s = .next t) :
    ∃ ea s1, effAddr md s = .ok ea s1 ∧ t = (storedState w ea.addr ea.wrap v s1).advance md.length := by
  obtain ⟨ea, s1, h1, h2⟩ := Access.andThen_eq_next h
  obtain ⟨_, s2, h3, h4⟩ := Access.andThen_eq_next h2
  obtain ⟨_, rfl⟩ := store_eq_ok h3
  cases h4; exact ⟨ea, s1, h1, rfl⟩

theorem modify_mem_of_ok {md : Mode} {w : Width} {result : Word → Word} {flags : Word → State → State} {s s1 s2 : State}
    {ea : Ea} {v : Word} (h : effAddr md s = .ok ea s1) (hl : load w ea.addr ea.wrap s1 = .ok v s2) :
    modify (.mem md) w result flags s =
      .next ((flags v (storedState w ea.addr ea.wrap (result v) s2)).advance md.length) := by
  have hd := load_notDevice hl
  have hc := (load_onlyDraws hl).cfg
  have hd2 : ∀ b ∈ storedBytes w ea.addr ea.wrap s2, NotDevice s2 b := by
    intro b hb
    rw [OnlyDraws.notDevice (load_onlyDraws hl)]
    apply hd
    cases w
    · exact hb
    · simpa [storedBytes, State.succ_congr hc] using hb
  simp only [modify]
  rw [h, Access.andThen_ok, hl, Access.andThen_ok, store_of_notDevice _ hd2]; rfl

/-- Everything a read-modify-write of memory can answer. -/
theorem modify_mem_eq_next {md : Mode} {w : Width} {result : Word → Word} {flags : Word → State → State} {s t : State}
    (h : modify (.mem md) w result flags s = .next t) :
    ∃ ea s1 v s2, effAddr md s = .ok ea s1 ∧ load w ea.addr ea.wrap s1 = .ok v s2 ∧
      t = (flags v (storedState w ea.addr ea.wrap (result v) s2)).advance md.length := by
  obtain ⟨ea, s1, h1, h2⟩ := Access.andThen_eq_next h
  obtain ⟨v, s2, h3, h4⟩ := Access.andThen_eq_next h2
  obtain ⟨_, s3, h5, h6⟩ := Access.andThen_eq_next h4
  obtain ⟨_, rfl⟩ := store_eq_ok h5
  cases h6; exact ⟨ea, s1, v, s2, h1, h3, rfl⟩

theorem withOperand_sound {cfg : Config} (src : Source) (w : Width) {effect : Word → State → State} {s : State}
    (h : s.cfg = cfg) (he : ∀ m t, (effect m t).cfg = t.cfg) : SoundResult cfg (withOperand src w effect s) :=
  (operand_sound src w h).andThen fun m t h1 => (he m t).trans h1

theorem storeTo_sound {cfg : Config} (md : Mode) (w : Width) (v : Word) {s : State} (h : s.cfg = cfg) :
    SoundResult cfg (storeTo md w v s) :=
  (effAddr_sound md h).andThen fun _ _ h1 => (store_sound w _ _ v h1).andThen fun _ _ h2 => h2

theorem modify_sound {cfg : Config} (pl : Place) (w : Width) {result : Word → Word} {flags : Word → State → State} {s : State}
    (h : s.cfg = cfg) (hf : ∀ v t, (flags v t).cfg = t.cfg) : SoundResult cfg (modify pl w result flags s) := by
  cases pl with
  | acc => simp only [modify, SoundResult, State.advance_cfg, State.accWrite_cfg, hf, h]
  | mem md =>
    exact (effAddr_sound md h).andThen fun _ _ h1 => (load_sound w _ _ h1).andThen fun v _ h2 =>
      (store_sound w _ _ _ h2).andThen fun _ t h3 => (hf v t).trans h3

/-! ## The stack (45_stack.md) -/

/-- What pushing one byte leaves. -/
def pushed8 (v : Byte) (s : State) : State := (stored8 s.stackAddr v s).moveS 0xFFFF

theorem push8_of_notDevice {s : State} (v : Byte) (h : NotDevice s s.stackAddr) : push8 v s = .ok () (pushed8 v s) := by
  unfold push8; rw [write8_of_notDevice v h]; rfl

/-- Everything a push can answer. -/
theorem push8_eq_ok {v : Byte} {s t : State} {u : Unit} (h : push8 v s = .ok u t) :
    NotDevice s s.stackAddr ∧ t = pushed8 v s := by
  obtain ⟨_, s1, h1, h2⟩ := Access.bind_eq_ok h
  obtain ⟨h3, rfl⟩ := write8_eq_ok h1
  cases h2; exact ⟨h3, rfl⟩

theorem pull8_of_backed {s : State} (h : Backed s (s.moveS 1).stackAddr) :
    pull8 s = .ok (s.cell (s.moveS 1).stackAddr) (s.moveS 1) := by
  unfold pull8
  rw [read8_of_backed (by simpa [Backed] using h), State.cell_moveS]

/-- Everything a pull can answer. -/
theorem pull8_onlyDraws {s t : State} {b : Byte} (h : pull8 s = .ok b t) : OnlyDraws (s.moveS 1) t := read8_onlyDraws h

theorem push8_sound {cfg : Config} (v : Byte) {s : State} (h : s.cfg = cfg) : (push8 v s).Sound cfg :=
  (write8_sound' _ v h).bind fun _ t h1 => by
    show (t.moveS 0xFFFF).cfg = cfg
    rw [State.moveS_cfg, h1]

theorem pull8_sound {cfg : Config} {s : State} (h : s.cfg = cfg) : (pull8 s).Sound cfg :=
  read8_sound' _ (by rw [State.moveS_cfg, h])

theorem push16_sound {cfg : Config} (v : Word) {s : State} (h : s.cfg = cfg) : (push16 v s).Sound cfg :=
  (push8_sound _ h).bind fun _ _ h1 => push8_sound _ h1

theorem pull16_sound {cfg : Config} {s : State} (h : s.cfg = cfg) : (pull16 s).Sound cfg :=
  (pull8_sound h).bind fun _ _ h1 => (pull8_sound h1).bind fun _ _ h2 => h2

theorem pushW_sound {cfg : Config} (w : Width) (v : Word) {s : State} (h : s.cfg = cfg) : (pushW w v s).Sound cfg := by
  cases w
  · exact push8_sound _ h
  · exact push16_sound v h

theorem pullW_sound {cfg : Config} (w : Width) {s : State} (h : s.cfg = cfg) : (pullW w s).Sound cfg := by
  cases w
  · exact (pull8_sound h).bind fun _ _ h1 => h1
  · exact pull16_sound h

/-! ## Interrupts, reset, fetch -/

@[simp] theorem State.enterFlags_cfg (s : State) : s.enterFlags.cfg = s.cfg := by
  unfold State.enterFlags; dsimp only; repeat' split
  all_goals rfl

@[simp] theorem State.enterFlags_c (s : State) : s.enterFlags.c = s.c := by
  unfold State.enterFlags; dsimp only; repeat' split
  all_goals rfl
@[simp] theorem State.enterFlags_x (s : State) : s.enterFlags.x = s.x := by
  unfold State.enterFlags; dsimp only; repeat' split
  all_goals rfl
@[simp] theorem State.enterFlags_y (s : State) : s.enterFlags.y = s.y := by
  unfold State.enterFlags; dsimp only; repeat' split
  all_goals rfl
@[simp] theorem State.enterFlags_sp (s : State) : s.enterFlags.sp = s.sp := by
  unfold State.enterFlags; dsimp only; repeat' split
  all_goals rfl
@[simp] theorem State.enterFlags_d (s : State) : s.enterFlags.d = s.d := by
  unfold State.enterFlags; dsimp only; repeat' split
  all_goals rfl
@[simp] theorem State.enterFlags_dbr (s : State) : s.enterFlags.dbr = s.dbr := by
  unfold State.enterFlags; dsimp only; repeat' split
  all_goals rfl
@[simp] theorem State.enterFlags_pc (s : State) : s.enterFlags.pc = s.pc := by
  unfold State.enterFlags; dsimp only; repeat' split
  all_goals rfl
@[simp] theorem State.enterFlags_e (s : State) : s.enterFlags.e = s.e := by
  unfold State.enterFlags; dsimp only; repeat' split
  all_goals rfl
@[simp] theorem State.enterFlags_run (s : State) : s.enterFlags.run = s.run := by
  unfold State.enterFlags; dsimp only; repeat' split
  all_goals rfl
@[simp] theorem State.enterFlags_nmiPending (s : State) : s.enterFlags.nmiPending = s.nmiPending := by
  unfold State.enterFlags; dsimp only; repeat' split
  all_goals rfl
@[simp] theorem State.enterFlags_irqLine (s : State) : s.enterFlags.irqLine = s.irqLine := by
  unfold State.enterFlags; dsimp only; repeat' split
  all_goals rfl
@[simp] theorem State.enterFlags_inputs (s : State) : s.enterFlags.inputs = s.inputs := by
  unfold State.enterFlags; dsimp only; repeat' split
  all_goals rfl
@[simp] theorem State.enterFlags_mem (s : State) : s.enterFlags.mem = s.mem := by
  unfold State.enterFlags; dsimp only; repeat' split
  all_goals rfl
@[simp] theorem State.enterFlags_freeIndex (s : State) : s.enterFlags.freeIndex = s.freeIndex := by
  unfold State.enterFlags; dsimp only; repeat' split
  all_goals rfl
@[simp] theorem State.enterFlags_pbr (s : State) : s.enterFlags.pbr = if s.is816 then 0 else s.pbr := by
  unfold State.enterFlags
  by_cases h : s.cfg.variant = .v6502 <;> cases s.is816 <;> simp [h]
@[simp] theorem State.cell_enterFlags (s : State) (a : Addr) : s.enterFlags.cell a = s.cell a :=
  State.cell_congr (by simp) (by simp) a

/-- The flags after interrupt entry: i is 1, d is 0 but on V6502, the others are as before. -/
theorem State.flag_enterFlags (s : State) (f : Flag) :
    s.enterFlags.flag f = if f = .i then true else if f = .d ∧ s.cfg.variant ≠ .v6502 then false else s.flag f := by
  have h : s.enterFlags.p = if s.cfg.variant = .v6502 then putFlag s.p .i true else putFlag (putFlag s.p .i true) .d false := by
    unfold State.enterFlags
    by_cases h : s.cfg.variant = .v6502 <;> cases s.is816 <;> simp [h]
  unfold State.flag
  rw [h]
  by_cases hv : s.cfg.variant = .v6502
  · simp [hv, getFlag_putFlag]
  · simp only [hv, if_false, getFlag_putFlag]
    cases f <;> simp [hv]

theorem pushFrame_sound {cfg : Config} (k : IntKind) (ret : Word) {s : State} (h : s.cfg = cfg) :
    (pushFrame k ret s).Sound cfg := by
  refine Access.Sound.bind (x := if s.emulation then Access.ok () s else push8 s.pbr s) ?_ fun _ _ h1 =>
    (push16_sound ret h1).bind fun _ _ h2 => push8_sound _ h2
  split
  · exact h
  · exact push8_sound _ h

theorem enter_sound {cfg : Config} (k : IntKind) (ret : Word) {s : State} (h : s.cfg = cfg) :
    SoundResult cfg (enter k ret s) :=
  (pushFrame_sound k ret h).andThen fun _ t h1 =>
    (read16_sound _ _ (by rw [State.enterFlags_cfg, h1])).andThen fun _ _ h2 => h2

theorem returnFromInterrupt_sound {cfg : Config} {s : State} (h : s.cfg = cfg) : SoundResult cfg (returnFromInterrupt s) := by
  refine (pull8_sound h).andThen fun v t h1 => (pull16_sound (by rw [State.loadP_cfg, h1])).andThen fun w u h2 => ?_
  split
  · exact h2
  · exact (pull8_sound h2).andThen fun _ _ h3 => h3

@[simp] theorem State.resetRegisters_cfg (s : State) : s.resetRegisters.cfg = s.cfg := by
  unfold State.resetRegisters; dsimp only; split <;> rfl

theorem resetEvent_sound {cfg : Config} {s : State} (h : s.cfg = cfg) : SoundResult cfg (resetEvent s) :=
  (read16_sound _ _ (by rw [State.resetRegisters_cfg, h])).andThen fun _ _ h1 => h1

theorem fetchFrom_sound {cfg : Config} : ∀ (n k : Nat) {s : State}, s.cfg = cfg → (fetchFrom k n s).Sound cfg
  | 0, _, _, h => h
  | n + 1, k, _, h => (read8_sound' _ h).bind fun _ _ h1 => (fetchFrom_sound n (k + 1) h1).bind fun _ _ h2 => h2

theorem fetchFrom_onlyDraws : ∀ (n k : Nat) {s t : State} {bs : List Byte}, fetchFrom k n s = .ok bs t → OnlyDraws s t
  | 0, _, _, _, _, h => by cases h; exact OnlyDraws.refl _
  | n + 1, k, _, _, _, h => by
    obtain ⟨_, _, h1, h2⟩ := Access.bind_eq_ok h
    obtain ⟨_, _, h3, h4⟩ := Access.bind_eq_ok h2
    cases h4
    exact (read8_onlyDraws h1).trans (fetchFrom_onlyDraws n (k + 1) h3)

/-- A fetch changes nothing, and gives an instruction that the variant has. -/
theorem fetchInstr_eq_ok {s t : State} {i : Instr} (h : fetchInstr s = .ok i t) :
    OnlyDraws s t ∧ ∃ op r o1 o2 o3, opcodeRow? s.cfg.variant op = some r ∧ i = r.build.apply s.wm s.wx o1 o2 o3 := by
  obtain ⟨op, s1, h1, h2⟩ := Access.bind_eq_ok h
  cases hr : opcodeRow? s.cfg.variant op with
  | none => rw [hr] at h2; cases h2
  | some r =>
    rw [hr] at h2
    obtain ⟨bs, s2, h3, h4⟩ := Access.bind_eq_ok h2
    injection h4 with h5 h6
    subst h6
    exact ⟨(read8_onlyDraws h1).trans (fetchFrom_onlyDraws _ _ h3), op, r, _, _, _, hr, h5.symm⟩

end Sys2Proof.Machine
end

