-- ==== Sys2Proof/Laws/Forms.lean ====
section
/-! SUPPORT. The form tables beside the machine: a form runs its instruction's meaning on its operand, and is as long as that
operand makes it; and how a frame is put together. -/

namespace Sys2Proof.Machine

/-! ## Forms: what runs, and the length -/

theorem exec_adcForm {src : Source} {i : Instr} (h : adcForm src = some i) (s : State) :
    exec i s = opAdc src s ∧ (encode s.wm s.wx i).length = src.length s.wm := by
  unfold adcForm at h
  split at h <;> cases h <;> first
    | exact ⟨rfl, rfl⟩
    | (refine ⟨rfl, ?_⟩; cases hw : s.wm <;> rfl)

theorem exec_sbcForm {src : Source} {i : Instr} (h : sbcForm src = some i) (s : State) :
    exec i s = opSbc src s ∧ (encode s.wm s.wx i).length = src.length s.wm := by
  unfold sbcForm at h
  split at h <;> cases h <;> first
    | exact ⟨rfl, rfl⟩
    | (refine ⟨rfl, ?_⟩; cases hw : s.wm <;> rfl)

theorem exec_andForm {src : Source} {i : Instr} (h : andForm src = some i) (s : State) :
    exec i s = opAnd src s ∧ (encode s.wm s.wx i).length = src.length s.wm := by
  unfold andForm at h
  split at h <;> cases h <;> first
    | exact ⟨rfl, rfl⟩
    | (refine ⟨rfl, ?_⟩; cases hw : s.wm <;> rfl)

theorem exec_eorForm {src : Source} {i : Instr} (h : eorForm src = some i) (s : State) :
    exec i s = opEor src s ∧ (encode s.wm s.wx i).length = src.length s.wm := by
  unfold eorForm at h
  split at h <;> cases h <;> first
    | exact ⟨rfl, rfl⟩
    | (refine ⟨rfl, ?_⟩; cases hw : s.wm <;> rfl)

theorem exec_oraForm {src : Source} {i : Instr} (h : oraForm src = some i) (s : State) :
    exec i s = opOra src s ∧ (encode s.wm s.wx i).length = src.length s.wm := by
  unfold oraForm at h
  split at h <;> cases h <;> first
    | exact ⟨rfl, rfl⟩
    | (refine ⟨rfl, ?_⟩; cases hw : s.wm <;> rfl)

theorem exec_cmpForm {src : Source} {i : Instr} (h : cmpForm src = some i) (s : State) :
    exec i s = opCmp src s ∧ (encode s.wm s.wx i).length = src.length s.wm := by
  unfold cmpForm at h
  split at h <;> cases h <;> first
    | exact ⟨rfl, rfl⟩
    | (refine ⟨rfl, ?_⟩; cases hw : s.wm <;> rfl)

theorem exec_ldaForm {src : Source} {i : Instr} (h : ldaForm src = some i) (s : State) :
    exec i s = opLda src s ∧ (encode s.wm s.wx i).length = src.length s.wm := by
  unfold ldaForm at h
  split at h <;> cases h <;> first
    | exact ⟨rfl, rfl⟩
    | (refine ⟨rfl, ?_⟩; cases hw : s.wm <;> rfl)

theorem exec_ldxForm {src : Source} {i : Instr} {s : State} (h : ldxForm s.cfg.ldxIndex src = some i) :
    exec i s = opLdIdx .x src s ∧ (encode s.wm s.wx i).length = src.length s.wx := by
  unfold ldxForm at h
  split at h <;> (try split at h) <;> cases h <;> subst_vars <;> first
    | exact ⟨rfl, rfl⟩
    | (refine ⟨rfl, ?_⟩; cases hw : s.wx <;> rfl)

theorem exec_ldyForm {src : Source} {i : Instr} {s : State} (h : ldyForm src = some i) :
    exec i s = opLdIdx .y src s ∧ (encode s.wm s.wx i).length = src.length s.wx := by
  unfold ldyForm at h
  split at h <;> cases h <;> first
    | exact ⟨rfl, rfl⟩
    | (refine ⟨rfl, ?_⟩; cases hw : s.wx <;> rfl)

theorem exec_cpxForm {src : Source} {i : Instr} {s : State} (h : cpxForm src = some i) :
    exec i s = opCmpIdx .x src s ∧ (encode s.wm s.wx i).length = src.length s.wx := by
  unfold cpxForm at h
  split at h <;> cases h <;> first
    | exact ⟨rfl, rfl⟩
    | (refine ⟨rfl, ?_⟩; cases hw : s.wx <;> rfl)

theorem exec_cpyForm {src : Source} {i : Instr} {s : State} (h : cpyForm src = some i) :
    exec i s = opCmpIdx .y src s ∧ (encode s.wm s.wx i).length = src.length s.wx := by
  unfold cpyForm at h
  split at h <;> cases h <;> first
    | exact ⟨rfl, rfl⟩
    | (refine ⟨rfl, ?_⟩; cases hw : s.wx <;> rfl)

theorem exec_bitForm {md : Mode} {i : Instr} (h : bitForm md = some i) (s : State) :
    exec i s = opBit md s ∧ (encode s.wm s.wx i).length = md.length := by
  unfold bitForm at h
  split at h <;> cases h <;> exact ⟨rfl, rfl⟩

theorem exec_staForm {md : Mode} {i : Instr} (h : staForm md = some i) (s : State) :
    exec i s = storeTo md s.wm (s.accRead s.wm) s ∧ (encode s.wm s.wx i).length = md.length := by
  unfold staForm at h
  split at h <;> cases h <;> exact ⟨rfl, rfl⟩

theorem exec_stxForm {md : Mode} {i : Instr} (h : stxForm md = some i) (s : State) :
    exec i s = storeTo md s.wx (trunc s.wx s.x) s ∧ (encode s.wm s.wx i).length = md.length := by
  unfold stxForm at h
  split at h <;> cases h <;> exact ⟨rfl, rfl⟩

theorem exec_styForm {md : Mode} {i : Instr} (h : styForm md = some i) (s : State) :
    exec i s = storeTo md s.wx (trunc s.wx s.y) s ∧ (encode s.wm s.wx i).length = md.length := by
  unfold styForm at h
  split at h <;> cases h <;> exact ⟨rfl, rfl⟩

theorem exec_stzForm {md : Mode} {i : Instr} (h : stzForm md = some i) (s : State) :
    exec i s = storeTo md s.wm 0 s ∧ (encode s.wm s.wx i).length = md.length := by
  unfold stzForm at h
  split at h <;> cases h <;> exact ⟨rfl, rfl⟩

theorem exec_trbForm {md : Mode} {i : Instr} (h : trbForm md = some i) (s : State) :
    exec i s = opTrb md s ∧ (encode s.wm s.wx i).length = md.length := by
  unfold trbForm at h
  split at h <;> cases h <;> exact ⟨rfl, rfl⟩

theorem exec_tsbForm {md : Mode} {i : Instr} (h : tsbForm md = some i) (s : State) :
    exec i s = opTsb md s ∧ (encode s.wm s.wx i).length = md.length := by
  unfold tsbForm at h
  split at h <;> cases h <;> exact ⟨rfl, rfl⟩

theorem exec_aslForm {pl : Place} {i : Instr} (h : aslForm pl = some i) (s : State) :
    exec i s = opAsl pl s ∧ (encode s.wm s.wx i).length = pl.length := by
  unfold aslForm at h
  split at h <;> cases h <;> exact ⟨rfl, rfl⟩

theorem exec_lsrForm {pl : Place} {i : Instr} (h : lsrForm pl = some i) (s : State) :
    exec i s = opLsr pl s ∧ (encode s.wm s.wx i).length = pl.length := by
  unfold lsrForm at h
  split at h <;> cases h <;> exact ⟨rfl, rfl⟩

theorem exec_rolForm {pl : Place} {i : Instr} (h : rolForm pl = some i) (s : State) :
    exec i s = opRol pl s ∧ (encode s.wm s.wx i).length = pl.length := by
  unfold rolForm at h
  split at h <;> cases h <;> exact ⟨rfl, rfl⟩

theorem exec_rorForm {pl : Place} {i : Instr} (h : rorForm pl = some i) (s : State) :
    exec i s = opRor pl s ∧ (encode s.wm s.wx i).length = pl.length := by
  unfold rorForm at h
  split at h <;> cases h <;> exact ⟨rfl, rfl⟩

theorem exec_incForm {pl : Place} {i : Instr} (h : incForm pl = some i) (s : State) :
    exec i s = opInc pl s ∧ (encode s.wm s.wx i).length = pl.length := by
  unfold incForm at h
  split at h <;> cases h <;> exact ⟨rfl, rfl⟩

theorem exec_decForm {pl : Place} {i : Instr} (h : decForm pl = some i) (s : State) :
    exec i s = opDec pl s ∧ (encode s.wm s.wx i).length = pl.length := by
  unfold decForm at h
  split at h <;> cases h <;> exact ⟨rfl, rfl⟩

/-! ## Frames -/

theorem Frame.of_onlyDraws {s t : State} (h : OnlyDraws s t) : Frame [] [] [] s t := by
  unfold OnlyDraws at h
  generalize t.freeIndex = k at h
  subst h
  exact ⟨fun r _ => by cases r <;> rfl, fun _ _ => rfl, fun _ _ => rfl⟩

theorem RegsBut.weaken {rs rs' : List Reg} {s t : State} (h : RegsBut rs s t) (hs : ∀ r ∈ rs, r ∈ rs') : RegsBut rs' s t :=
  fun r hr => h r fun hm => hr (hs r hm)

theorem RegsBut.trans {rs : List Reg} {s t u : State} (h : RegsBut rs s t) (h' : RegsBut rs t u) : RegsBut rs s u := by
  intro r hr
  have h1 := h r hr
  have h2 := h' r hr
  cases r <;> exact Eq.trans h2 h1

theorem FlagsBut.trans {fs : List Flag} {s t u : State} (h : FlagsBut fs s t) (h' : FlagsBut fs t u) : FlagsBut fs s u :=
  fun f hf => (h' f hf).trans (h f hf)

/-- Two states with the same P have the same flags. -/
theorem FlagsBut.of_p {fs : List Flag} {s t : State} (h : t.p = s.p) : FlagsBut fs s t := fun f _ => State.flag_congr h f

/-- Two states with the same launch and memory have the same bytes. -/
theorem MemBut.of_mem {as : List Addr} {s t : State} (hc : t.cfg = s.cfg) (hm : t.mem = s.mem) : MemBut as s t :=
  fun a _ => State.cell_congr hc hm a

end Sys2Proof.Machine
end

