-- ==== Sys2Proof/Laws/Arithmetic.lean ====
section
/-! SUPPORT. The accumulator, n and z, and the step of PC in the words of the statements; the cases of ADC and SBC; the digits
of Binary Coded Decimal. -/

namespace Sys2Proof.Machine

/-! ## The words of the statements -/

theorem accNat_eq_accRead (s : State) (w : Width) : s.accNat w = (s.accRead w).toNat := by
  simp [State.accNat, State.accRead]

/-- What `AccWrite` of data of its width leaves in the accumulator. -/
theorem accIs_of_accWrite {s t : State} {w : Width} {r : Word} {n : Nat} (h0 : r.toNat = n) (hn : n < modulus w)
    (h : t.c = (s.accWrite w r).c) : AccIs s t w n := by
  unfold AccIs
  rw [h]
  subst h0
  cases w
  · simp [State.accWrite] at *; omega
  · simp [State.accWrite]

/-- What `SetNZ` of data of its width leaves in n and z. -/
theorem nz_of_setNZ {t : State} {w : Width} {r : Word} {n : Nat} (h0 : r.toNat = n) (hn : n < modulus w)
    (h1 : t.flag .n = msb w r) (h2 : t.flag .z = (trunc w r == 0)) : NZ t w n := by
  subst h0
  refine ⟨h1, ?_⟩
  rw [h2, trunc_beq_zero, Nat.mod_eq_of_lt hn]

theorem advances_advance {i : Instr} {s t : State} {n : Nat} (h : (encode s.wm s.wx i).length = n) (hp : t.pc = s.pc) :
    Advances i s (t.advance n) := by
  simp [Advances, State.advance, h, hp]

/-- A frame that leaves PC open is a frame of the state after PC has moved. -/
theorem Frame.advance {rs : List Reg} {fs : List Flag} {as : List Addr} {s t : State} (n : Nat) (h : Frame rs fs as s t)
    (hp : Reg.pc ∈ rs) : Frame rs fs as s (t.advance n) := by
  refine ⟨fun q hq => ?_, h.2.1, h.2.2⟩
  have := h.1 q hq
  cases q <;> first
    | exact this
    | exact absurd hp hq

/-! ## ADC and SBC: their cases (41_arithmetic.md R162, R163, R170, R171) -/

theorem State.adc_of_binary {t : State} {w : Width} {m : Word} (h : t.flag .d = false) :
    t.adc w m =
      (((t.setFlag .c (addCarry w (t.accRead w) m (t.flag .c))).setFlag .v
        (addOverflow w (t.accRead w) m (t.flag .c))).accWrite w (addResult w (t.accRead w) m (t.flag .c))).setNZ w
        (addResult w (t.accRead w) m (t.flag .c)) := by
  unfold State.adc; dsimp only; rw [h]; rfl

theorem State.adc_of_valid {t : State} {w : Width} {m : Word} (h : t.flag .d = true)
    (hv : (validBcd w (t.accRead w) && validBcd w m) = true) :
    t.adc w m =
      t.decimalResult w (bcdAddResult w (t.accRead w) m (t.flag .c)) (bcdAddCarry w (t.accRead w) m (t.flag .c)) := by
  unfold State.adc; dsimp only; rw [if_pos h, if_pos hv]

theorem State.adc_of_invalid {t : State} {w : Width} {m : Word} (h : t.flag .d = true)
    (hv : ¬(validBcd w (t.accRead w) && validBcd w m) = true) : t.adc w m = t.decimalInvalid w := by
  unfold State.adc; dsimp only; rw [if_pos h, if_neg hv]

theorem State.sbc_of_binary {t : State} {w : Width} {m : Word} (h : t.flag .d = false) :
    t.sbc w m =
      (((t.setFlag .c (subCarry (t.accRead w) m (t.flag .c))).setFlag .v
        (subOverflow w (t.accRead w) m (t.flag .c))).accWrite w (subResult w (t.accRead w) m (t.flag .c))).setNZ w
        (subResult w (t.accRead w) m (t.flag .c)) := by
  unfold State.sbc; dsimp only; rw [h]; rfl

theorem State.sbc_of_valid {t : State} {w : Width} {m : Word} (h : t.flag .d = true)
    (hv : (validBcd w (t.accRead w) && validBcd w m) = true) :
    t.sbc w m =
      t.decimalResult w (bcdSubResult w (t.accRead w) m (t.flag .c)) (bcdSubCarry w (t.accRead w) m (t.flag .c)) := by
  unfold State.sbc; dsimp only; rw [if_pos h, if_pos hv]

theorem State.sbc_of_invalid {t : State} {w : Width} {m : Word} (h : t.flag .d = true)
    (hv : ¬(validBcd w (t.accRead w) && validBcd w m) = true) : t.sbc w m = t.decimalInvalid w := by
  unfold State.sbc; dsimp only; rw [if_pos h, if_neg hv]

theorem drawData_lt (s : State) (w : Width) : (s.drawData w).toNat < modulus w := by
  cases w
  · simp [State.drawData]; omega
  · simp [State.drawData]; omega

/-- The end of a decimal operation of valid operands. -/
theorem decimalResult_spec (s : State) (w : Width) (r : Word) (c : Bool) :
    let t := s.decimalResult w r c
    Frame [.c] [.n, .v, .z, .c] [] s t ∧ t.c = (s.accWrite w r).c ∧ t.flag .c = c ∧
      (s.cfg.variant ≠ .v6502 → t.flag .n = msb w r ∧ t.flag .z = (trunc w r == 0)) := by
  intro t
  refine ⟨⟨?_, ?_, ?_⟩, ?_, ?_, fun hv => ⟨?_, ?_⟩⟩
  · intro q hq; cases q <;> simp only [t, State.decimalResult] <;> split <;> simp_all [Reg.Same]
  · intro f hf; cases f <;> simp only [t, State.decimalResult] <;> split <;> simp_all
  · apply MemBut.of_mem <;> simp only [t, State.decimalResult] <;> split <;> simp
  · simp only [t, State.decimalResult]; split <;> simp
  · simp only [t, State.decimalResult]; split <;> simp
  · simp only [t, State.decimalResult]; split <;> simp_all
  · simp only [t, State.decimalResult]; split <;> simp_all

/-- The end of a decimal operation of other operands: a free value in the accumulator and in n, v, z, c. -/
theorem decimalInvalid_spec (s : State) (w : Width) :
    let t := s.decimalInvalid w
    Frame [.c] [.n, .v, .z, .c] [] s t ∧ t.c = (s.accWrite w (s.drawData w)).c := by
  intro t
  refine ⟨⟨?_, ?_, ?_⟩, ?_⟩
  · intro q hq; cases q <;> simp only [t, State.decimalInvalid] <;> simp_all [Reg.Same]
  · intro f hf; cases f <;> simp only [t, State.decimalInvalid] <;> simp_all
  · apply MemBut.of_mem <;> simp only [t, State.decimalInvalid] <;> simp
  · simp only [t, State.decimalInvalid]; simp

/-! ## Digits -/

theorem bcdOf_lt : ∀ k n, bcdOf k n < 16 ^ k
  | 0, _ => by simp [bcdOf]
  | k + 1, n => by
    have := bcdOf_lt k (n / 10)
    simp only [bcdOf]; rw [pow_succ]; omega

theorem bcdOf_lt_modulus (w : Width) (n : Nat) : bcdOf (bcdDigits w) n < modulus w := by
  have := bcdOf_lt (bcdDigits w) n
  cases w <;> exact this

end Sys2Proof.Machine
end

