-- ==== Sys2Proof/Laws/PerInstr.lean ====
section
/-! SUPPORT. One lemma per constructor of Instr: the row of the opcode map at its opcode byte is available where the
instruction is, takes as many operand bytes as the instruction has, and builds the instruction from them. -/

namespace Sys2Proof.Laws.Encodes

/-- The row `r` is the row of the instruction `i`. -/
def RowOf (r : Row) (i : Instr) : Prop :=
  r.avail = i.availability ∧ ∀ wm wx, i.operand.fits wm wx = true →
    r.build.operandBytes wm wx = (i.operand.bytes wm wx).length ∧
    ∀ rest, r.build.apply wm wx ((i.operand.bytes wm wx ++ rest).getD 0 0) ((i.operand.bytes wm wx ++ rest).getD 1 0)
      ((i.operand.bytes wm wx ++ rest).getD 2 0) = i

/-- The opcode map holds the instruction's row at its opcode byte. -/
def Statement (i : Instr) : Prop := ∃ r, opcodeMap[i.opcode.toNat]? = some r ∧ RowOf r i

/-- A constant that fits its width is read back from its bytes. -/
theorem imm_immBytes (w : Width) (k : Word) (h : w.fits k = true) :
    w.bytes = (w.immBytes k).length ∧
      ∀ rest : List Byte, w.imm ((w.immBytes k ++ rest).getD 0 0) ((w.immBytes k ++ rest).getD 1 0) = k := by
  cases w
  · refine ⟨rfl, fun rest => ?_⟩
    simp only [Width.fits, decide_eq_true_eq] at h
    apply BitVec.eq_of_toNat_eq
    simp [Width.imm, Width.immBytes]; omega
  · exact ⟨rfl, fun rest => by simp [Width.imm, Width.immBytes]⟩

/-- A 24-bit address is read back from its three bytes. -/
theorem addrOf_bytes (l : Addr) : addrOf l.bank (wordOf (lowByte l.offset) (highByte l.offset)) = l := by
  rw [wordOf_lowByte_highByte, addrOf_bank_offset]

theorem brk (sig : Byte) : Statement (.brk sig) :=
  ⟨_, rfl, rfl, fun _ _ _ => ⟨rfl, fun _ => rfl⟩⟩
theorem oraDpXInd (o1 : Byte) : Statement (.oraDpXInd o1) :=
  ⟨_, rfl, rfl, fun _ _ _ => ⟨rfl, fun _ => rfl⟩⟩
theorem cop (sig : Byte) : Statement (.cop sig) :=
  ⟨_, rfl, rfl, fun _ _ _ => ⟨rfl, fun _ => rfl⟩⟩
theorem oraSr (o1 : Byte) : Statement (.oraSr o1) :=
  ⟨_, rfl, rfl, fun _ _ _ => ⟨rfl, fun _ => rfl⟩⟩
theorem tsbDp (o1 : Byte) : Statement (.tsbDp o1) :=
  ⟨_, rfl, rfl, fun _ _ _ => ⟨rfl, fun _ => rfl⟩⟩
theorem oraDp (o1 : Byte) : Statement (.oraDp o1) :=
  ⟨_, rfl, rfl, fun _ _ _ => ⟨rfl, fun _ => rfl⟩⟩
theorem aslDp (o1 : Byte) : Statement (.aslDp o1) :=
  ⟨_, rfl, rfl, fun _ _ _ => ⟨rfl, fun _ => rfl⟩⟩
theorem oraDpIndLong (o1 : Byte) : Statement (.oraDpIndLong o1) :=
  ⟨_, rfl, rfl, fun _ _ _ => ⟨rfl, fun _ => rfl⟩⟩
theorem oraImm (k : Word) : Statement (.oraImm k) :=
  ⟨_, rfl, rfl, fun wm _ h => ⟨(imm_immBytes wm k h).1, fun rest => congrArg Instr.oraImm ((imm_immBytes wm k h).2 rest)⟩⟩
theorem tsbAbs (a : Word) : Statement (.tsbAbs a) :=
  ⟨_, rfl, rfl, fun _ _ _ => ⟨rfl, fun _ => congrArg Instr.tsbAbs (wordOf_lowByte_highByte a)⟩⟩
theorem oraAbs (a : Word) : Statement (.oraAbs a) :=
  ⟨_, rfl, rfl, fun _ _ _ => ⟨rfl, fun _ => congrArg Instr.oraAbs (wordOf_lowByte_highByte a)⟩⟩
theorem aslAbs (a : Word) : Statement (.aslAbs a) :=
  ⟨_, rfl, rfl, fun _ _ _ => ⟨rfl, fun _ => congrArg Instr.aslAbs (wordOf_lowByte_highByte a)⟩⟩
theorem oraLong (l : Addr) : Statement (.oraLong l) :=
  ⟨_, rfl, rfl, fun _ _ _ => ⟨rfl, fun _ => congrArg Instr.oraLong (addrOf_bytes l)⟩⟩
theorem bpl (rel : Byte) : Statement (.bpl rel) :=
  ⟨_, rfl, rfl, fun _ _ _ => ⟨rfl, fun _ => rfl⟩⟩
theorem oraDpIndY (o1 : Byte) : Statement (.oraDpIndY o1) :=
  ⟨_, rfl, rfl, fun _ _ _ => ⟨rfl, fun _ => rfl⟩⟩
theorem oraDpInd (o1 : Byte) : Statement (.oraDpInd o1) :=
  ⟨_, rfl, rfl, fun _ _ _ => ⟨rfl, fun _ => rfl⟩⟩
theorem oraSrIndY (o1 : Byte) : Statement (.oraSrIndY o1) :=
  ⟨_, rfl, rfl, fun _ _ _ => ⟨rfl, fun _ => rfl⟩⟩
theorem trbDp (o1 : Byte) : Statement (.trbDp o1) :=
  ⟨_, rfl, rfl, fun _ _ _ => ⟨rfl, fun _ => rfl⟩⟩
theorem oraDpX (o1 : Byte) : Statement (.oraDpX o1) :=
  ⟨_, rfl, rfl, fun _ _ _ => ⟨rfl, fun _ => rfl⟩⟩
theorem aslDpX (o1 : Byte) : Statement (.aslDpX o1) :=
  ⟨_, rfl, rfl, fun _ _ _ => ⟨rfl, fun _ => rfl⟩⟩
theorem oraDpIndLongY (o1 : Byte) : Statement (.oraDpIndLongY o1) :=
  ⟨_, rfl, rfl, fun _ _ _ => ⟨rfl, fun _ => rfl⟩⟩
theorem oraAbsY (a : Word) : Statement (.oraAbsY a) :=
  ⟨_, rfl, rfl, fun _ _ _ => ⟨rfl, fun _ => congrArg Instr.oraAbsY (wordOf_lowByte_highByte a)⟩⟩
theorem trbAbs (a : Word) : Statement (.trbAbs a) :=
  ⟨_, rfl, rfl, fun _ _ _ => ⟨rfl, fun _ => congrArg Instr.trbAbs (wordOf_lowByte_highByte a)⟩⟩
theorem oraAbsX (a : Word) : Statement (.oraAbsX a) :=
  ⟨_, rfl, rfl, fun _ _ _ => ⟨rfl, fun _ => congrArg Instr.oraAbsX (wordOf_lowByte_highByte a)⟩⟩
theorem aslAbsX (a : Word) : Statement (.aslAbsX a) :=
  ⟨_, rfl, rfl, fun _ _ _ => ⟨rfl, fun _ => congrArg Instr.aslAbsX (wordOf_lowByte_highByte a)⟩⟩
theorem oraLongX (l : Addr) : Statement (.oraLongX l) :=
  ⟨_, rfl, rfl, fun _ _ _ => ⟨rfl, fun _ => congrArg Instr.oraLongX (addrOf_bytes l)⟩⟩
theorem jsrAbs (a : Word) : Statement (.jsrAbs a) :=
  ⟨_, rfl, rfl, fun _ _ _ => ⟨rfl, fun _ => congrArg Instr.jsrAbs (wordOf_lowByte_highByte a)⟩⟩
theorem andDpXInd (o1 : Byte) : Statement (.andDpXInd o1) :=
  ⟨_, rfl, rfl, fun _ _ _ => ⟨rfl, fun _ => rfl⟩⟩
theorem jsl (l : Addr) : Statement (.jsl l) :=
  ⟨_, rfl, rfl, fun _ _ _ => ⟨rfl, fun _ => congrArg Instr.jsl (addrOf_bytes l)⟩⟩
theorem andSr (o1 : Byte) : Statement (.andSr o1) :=
  ⟨_, rfl, rfl, fun _ _ _ => ⟨rfl, fun _ => rfl⟩⟩
theorem bitDp (o1 : Byte) : Statement (.bitDp o1) :=
  ⟨_, rfl, rfl, fun _ _ _ => ⟨rfl, fun _ => rfl⟩⟩
theorem andDp (o1 : Byte) : Statement (.andDp o1) :=
  ⟨_, rfl, rfl, fun _ _ _ => ⟨rfl, fun _ => rfl⟩⟩
theorem rolDp (o1 : Byte) : Statement (.rolDp o1) :=
  ⟨_, rfl, rfl, fun _ _ _ => ⟨rfl, fun _ => rfl⟩⟩
theorem andDpIndLong (o1 : Byte) : Statement (.andDpIndLong o1) :=
  ⟨_, rfl, rfl, fun _ _ _ => ⟨rfl, fun _ => rfl⟩⟩
theorem andImm (k : Word) : Statement (.andImm k) :=
  ⟨_, rfl, rfl, fun wm _ h => ⟨(imm_immBytes wm k h).1, fun rest => congrArg Instr.andImm ((imm_immBytes wm k h).2 rest)⟩⟩
theorem bitAbs (a : Word) : Statement (.bitAbs a) :=
  ⟨_, rfl, rfl, fun _ _ _ => ⟨rfl, fun _ => congrArg Instr.bitAbs (wordOf_lowByte_highByte a)⟩⟩
theorem andAbs (a : Word) : Statement (.andAbs a) :=
  ⟨_, rfl, rfl, fun _ _ _ => ⟨rfl, fun _ => congrArg Instr.andAbs (wordOf_lowByte_highByte a)⟩⟩
theorem rolAbs (a : Word) : Statement (.rolAbs a) :=
  ⟨_, rfl, rfl, fun _ _ _ => ⟨rfl, fun _ => congrArg Instr.rolAbs (wordOf_lowByte_highByte a)⟩⟩
theorem andLong (l : Addr) : Statement (.andLong l) :=
  ⟨_, rfl, rfl, fun _ _ _ => ⟨rfl, fun _ => congrArg Instr.andLong (addrOf_bytes l)⟩⟩
theorem bmi (rel : Byte) : Statement (.bmi rel) :=
  ⟨_, rfl, rfl, fun _ _ _ => ⟨rfl, fun _ => rfl⟩⟩
theorem andDpIndY (o1 : Byte) : Statement (.andDpIndY o1) :=
  ⟨_, rfl, rfl, fun _ _ _ => ⟨rfl, fun _ => rfl⟩⟩
theorem andDpInd (o1 : Byte) : Statement (.andDpInd o1) :=
  ⟨_, rfl, rfl, fun _ _ _ => ⟨rfl, fun _ => rfl⟩⟩
theorem andSrIndY (o1 : Byte) : Statement (.andSrIndY o1) :=
  ⟨_, rfl, rfl, fun _ _ _ => ⟨rfl, fun _ => rfl⟩⟩
theorem bitDpX (o1 : Byte) : Statement (.bitDpX o1) :=
  ⟨_, rfl, rfl, fun _ _ _ => ⟨rfl, fun _ => rfl⟩⟩
theorem andDpX (o1 : Byte) : Statement (.andDpX o1) :=
  ⟨_, rfl, rfl, fun _ _ _ => ⟨rfl, fun _ => rfl⟩⟩
theorem rolDpX (o1 : Byte) : Statement (.rolDpX o1) :=
  ⟨_, rfl, rfl, fun _ _ _ => ⟨rfl, fun _ => rfl⟩⟩
theorem andDpIndLongY (o1 : Byte) : Statement (.andDpIndLongY o1) :=
  ⟨_, rfl, rfl, fun _ _ _ => ⟨rfl, fun _ => rfl⟩⟩
theorem andAbsY (a : Word) : Statement (.andAbsY a) :=
  ⟨_, rfl, rfl, fun _ _ _ => ⟨rfl, fun _ => congrArg Instr.andAbsY (wordOf_lowByte_highByte a)⟩⟩
theorem bitAbsX (a : Word) : Statement (.bitAbsX a) :=
  ⟨_, rfl, rfl, fun _ _ _ => ⟨rfl, fun _ => congrArg Instr.bitAbsX (wordOf_lowByte_highByte a)⟩⟩
theorem andAbsX (a : Word) : Statement (.andAbsX a) :=
  ⟨_, rfl, rfl, fun _ _ _ => ⟨rfl, fun _ => congrArg Instr.andAbsX (wordOf_lowByte_highByte a)⟩⟩
theorem rolAbsX (a : Word) : Statement (.rolAbsX a) :=
  ⟨_, rfl, rfl, fun _ _ _ => ⟨rfl, fun _ => congrArg Instr.rolAbsX (wordOf_lowByte_highByte a)⟩⟩
theorem andLongX (l : Addr) : Statement (.andLongX l) :=
  ⟨_, rfl, rfl, fun _ _ _ => ⟨rfl, fun _ => congrArg Instr.andLongX (addrOf_bytes l)⟩⟩
theorem eorDpXInd (o1 : Byte) : Statement (.eorDpXInd o1) :=
  ⟨_, rfl, rfl, fun _ _ _ => ⟨rfl, fun _ => rfl⟩⟩
theorem wdm (sig : Byte) : Statement (.wdm sig) :=
  ⟨_, rfl, rfl, fun _ _ _ => ⟨rfl, fun _ => rfl⟩⟩
theorem eorSr (o1 : Byte) : Statement (.eorSr o1) :=
  ⟨_, rfl, rfl, fun _ _ _ => ⟨rfl, fun _ => rfl⟩⟩
theorem mvp (o1 : Byte) (o2 : Byte) : Statement (.mvp o1 o2) :=
  ⟨_, rfl, rfl, fun _ _ _ => ⟨rfl, fun _ => rfl⟩⟩
theorem eorDp (o1 : Byte) : Statement (.eorDp o1) :=
  ⟨_, rfl, rfl, fun _ _ _ => ⟨rfl, fun _ => rfl⟩⟩
theorem lsrDp (o1 : Byte) : Statement (.lsrDp o1) :=
  ⟨_, rfl, rfl, fun _ _ _ => ⟨rfl, fun _ => rfl⟩⟩
theorem eorDpIndLong (o1 : Byte) : Statement (.eorDpIndLong o1) :=
  ⟨_, rfl, rfl, fun _ _ _ => ⟨rfl, fun _ => rfl⟩⟩
theorem eorImm (k : Word) : Statement (.eorImm k) :=
  ⟨_, rfl, rfl, fun wm _ h => ⟨(imm_immBytes wm k h).1, fun rest => congrArg Instr.eorImm ((imm_immBytes wm k h).2 rest)⟩⟩
theorem jmpAbs (a : Word) : Statement (.jmpAbs a) :=
  ⟨_, rfl, rfl, fun _ _ _ => ⟨rfl, fun _ => congrArg Instr.jmpAbs (wordOf_lowByte_highByte a)⟩⟩
theorem eorAbs (a : Word) : Statement (.eorAbs a) :=
  ⟨_, rfl, rfl, fun _ _ _ => ⟨rfl, fun _ => congrArg Instr.eorAbs (wordOf_lowByte_highByte a)⟩⟩
theorem lsrAbs (a : Word) : Statement (.lsrAbs a) :=
  ⟨_, rfl, rfl, fun _ _ _ => ⟨rfl, fun _ => congrArg Instr.lsrAbs (wordOf_lowByte_highByte a)⟩⟩
theorem eorLong (l : Addr) : Statement (.eorLong l) :=
  ⟨_, rfl, rfl, fun _ _ _ => ⟨rfl, fun _ => congrArg Instr.eorLong (addrOf_bytes l)⟩⟩
theorem bvc (rel : Byte) : Statement (.bvc rel) :=
  ⟨_, rfl, rfl, fun _ _ _ => ⟨rfl, fun _ => rfl⟩⟩
theorem eorDpIndY (o1 : Byte) : Statement (.eorDpIndY o1) :=
  ⟨_, rfl, rfl, fun _ _ _ => ⟨rfl, fun _ => rfl⟩⟩
theorem eorDpInd (o1 : Byte) : Statement (.eorDpInd o1) :=
  ⟨_, rfl, rfl, fun _ _ _ => ⟨rfl, fun _ => rfl⟩⟩
theorem eorSrIndY (o1 : Byte) : Statement (.eorSrIndY o1) :=
  ⟨_, rfl, rfl, fun _ _ _ => ⟨rfl, fun _ => rfl⟩⟩
theorem mvn (o1 : Byte) (o2 : Byte) : Statement (.mvn o1 o2) :=
  ⟨_, rfl, rfl, fun _ _ _ => ⟨rfl, fun _ => rfl⟩⟩
theorem eorDpX (o1 : Byte) : Statement (.eorDpX o1) :=
  ⟨_, rfl, rfl, fun _ _ _ => ⟨rfl, fun _ => rfl⟩⟩
theorem lsrDpX (o1 : Byte) : Statement (.lsrDpX o1) :=
  ⟨_, rfl, rfl, fun _ _ _ => ⟨rfl, fun _ => rfl⟩⟩
theorem eorDpIndLongY (o1 : Byte) : Statement (.eorDpIndLongY o1) :=
  ⟨_, rfl, rfl, fun _ _ _ => ⟨rfl, fun _ => rfl⟩⟩
theorem eorAbsY (a : Word) : Statement (.eorAbsY a) :=
  ⟨_, rfl, rfl, fun _ _ _ => ⟨rfl, fun _ => congrArg Instr.eorAbsY (wordOf_lowByte_highByte a)⟩⟩
theorem jmpLong (l : Addr) : Statement (.jmpLong l) :=
  ⟨_, rfl, rfl, fun _ _ _ => ⟨rfl, fun _ => congrArg Instr.jmpLong (addrOf_bytes l)⟩⟩
theorem eorAbsX (a : Word) : Statement (.eorAbsX a) :=
  ⟨_, rfl, rfl, fun _ _ _ => ⟨rfl, fun _ => congrArg Instr.eorAbsX (wordOf_lowByte_highByte a)⟩⟩
theorem lsrAbsX (a : Word) : Statement (.lsrAbsX a) :=
  ⟨_, rfl, rfl, fun _ _ _ => ⟨rfl, fun _ => congrArg Instr.lsrAbsX (wordOf_lowByte_highByte a)⟩⟩
theorem eorLongX (l : Addr) : Statement (.eorLongX l) :=
  ⟨_, rfl, rfl, fun _ _ _ => ⟨rfl, fun _ => congrArg Instr.eorLongX (addrOf_bytes l)⟩⟩
theorem adcDpXInd (o1 : Byte) : Statement (.adcDpXInd o1) :=
  ⟨_, rfl, rfl, fun _ _ _ => ⟨rfl, fun _ => rfl⟩⟩
theorem per (rel : Word) : Statement (.per rel) :=
  ⟨_, rfl, rfl, fun _ _ _ => ⟨rfl, fun _ => congrArg Instr.per (wordOf_lowByte_highByte rel)⟩⟩
theorem adcSr (o1 : Byte) : Statement (.adcSr o1) :=
  ⟨_, rfl, rfl, fun _ _ _ => ⟨rfl, fun _ => rfl⟩⟩
theorem stzDp (o1 : Byte) : Statement (.stzDp o1) :=
  ⟨_, rfl, rfl, fun _ _ _ => ⟨rfl, fun _ => rfl⟩⟩
theorem adcDp (o1 : Byte) : Statement (.adcDp o1) :=
  ⟨_, rfl, rfl, fun _ _ _ => ⟨rfl, fun _ => rfl⟩⟩
theorem rorDp (o1 : Byte) : Statement (.rorDp o1) :=
  ⟨_, rfl, rfl, fun _ _ _ => ⟨rfl, fun _ => rfl⟩⟩
theorem adcDpIndLong (o1 : Byte) : Statement (.adcDpIndLong o1) :=
  ⟨_, rfl, rfl, fun _ _ _ => ⟨rfl, fun _ => rfl⟩⟩
theorem adcImm (k : Word) : Statement (.adcImm k) :=
  ⟨_, rfl, rfl, fun wm _ h => ⟨(imm_immBytes wm k h).1, fun rest => congrArg Instr.adcImm ((imm_immBytes wm k h).2 rest)⟩⟩
theorem jmpAbsInd (a : Word) : Statement (.jmpAbsInd a) :=
  ⟨_, rfl, rfl, fun _ _ _ => ⟨rfl, fun _ => congrArg Instr.jmpAbsInd (wordOf_lowByte_highByte a)⟩⟩
theorem adcAbs (a : Word) : Statement (.adcAbs a) :=
  ⟨_, rfl, rfl, fun _ _ _ => ⟨rfl, fun _ => congrArg Instr.adcAbs (wordOf_lowByte_highByte a)⟩⟩
theorem rorAbs (a : Word) : Statement (.rorAbs a) :=
  ⟨_, rfl, rfl, fun _ _ _ => ⟨rfl, fun _ => congrArg Instr.rorAbs (wordOf_lowByte_highByte a)⟩⟩
theorem adcLong (l : Addr) : Statement (.adcLong l) :=
  ⟨_, rfl, rfl, fun _ _ _ => ⟨rfl, fun _ => congrArg Instr.adcLong (addrOf_bytes l)⟩⟩
theorem bvs (rel : Byte) : Statement (.bvs rel) :=
  ⟨_, rfl, rfl, fun _ _ _ => ⟨rfl, fun _ => rfl⟩⟩
theorem adcDpIndY (o1 : Byte) : Statement (.adcDpIndY o1) :=
  ⟨_, rfl, rfl, fun _ _ _ => ⟨rfl, fun _ => rfl⟩⟩
theorem adcDpInd (o1 : Byte) : Statement (.adcDpInd o1) :=
  ⟨_, rfl, rfl, fun _ _ _ => ⟨rfl, fun _ => rfl⟩⟩
theorem adcSrIndY (o1 : Byte) : Statement (.adcSrIndY o1) :=
  ⟨_, rfl, rfl, fun _ _ _ => ⟨rfl, fun _ => rfl⟩⟩
theorem stzDpX (o1 : Byte) : Statement (.stzDpX o1) :=
  ⟨_, rfl, rfl, fun _ _ _ => ⟨rfl, fun _ => rfl⟩⟩
theorem adcDpX (o1 : Byte) : Statement (.adcDpX o1) :=
  ⟨_, rfl, rfl, fun _ _ _ => ⟨rfl, fun _ => rfl⟩⟩
theorem rorDpX (o1 : Byte) : Statement (.rorDpX o1) :=
  ⟨_, rfl, rfl, fun _ _ _ => ⟨rfl, fun _ => rfl⟩⟩
theorem adcDpIndLongY (o1 : Byte) : Statement (.adcDpIndLongY o1) :=
  ⟨_, rfl, rfl, fun _ _ _ => ⟨rfl, fun _ => rfl⟩⟩
theorem adcAbsY (a : Word) : Statement (.adcAbsY a) :=
  ⟨_, rfl, rfl, fun _ _ _ => ⟨rfl, fun _ => congrArg Instr.adcAbsY (wordOf_lowByte_highByte a)⟩⟩
theorem jmpAbsXInd (a : Word) : Statement (.jmpAbsXInd a) :=
  ⟨_, rfl, rfl, fun _ _ _ => ⟨rfl, fun _ => congrArg Instr.jmpAbsXInd (wordOf_lowByte_highByte a)⟩⟩
theorem adcAbsX (a : Word) : Statement (.adcAbsX a) :=
  ⟨_, rfl, rfl, fun _ _ _ => ⟨rfl, fun _ => congrArg Instr.adcAbsX (wordOf_lowByte_highByte a)⟩⟩
theorem rorAbsX (a : Word) : Statement (.rorAbsX a) :=
  ⟨_, rfl, rfl, fun _ _ _ => ⟨rfl, fun _ => congrArg Instr.rorAbsX (wordOf_lowByte_highByte a)⟩⟩
theorem adcLongX (l : Addr) : Statement (.adcLongX l) :=
  ⟨_, rfl, rfl, fun _ _ _ => ⟨rfl, fun _ => congrArg Instr.adcLongX (addrOf_bytes l)⟩⟩
theorem bra (rel : Byte) : Statement (.bra rel) :=
  ⟨_, rfl, rfl, fun _ _ _ => ⟨rfl, fun _ => rfl⟩⟩
theorem staDpXInd (o1 : Byte) : Statement (.staDpXInd o1) :=
  ⟨_, rfl, rfl, fun _ _ _ => ⟨rfl, fun _ => rfl⟩⟩
theorem brl (rel : Word) : Statement (.brl rel) :=
  ⟨_, rfl, rfl, fun _ _ _ => ⟨rfl, fun _ => congrArg Instr.brl (wordOf_lowByte_highByte rel)⟩⟩
theorem staSr (o1 : Byte) : Statement (.staSr o1) :=
  ⟨_, rfl, rfl, fun _ _ _ => ⟨rfl, fun _ => rfl⟩⟩
theorem styDp (o1 : Byte) : Statement (.styDp o1) :=
  ⟨_, rfl, rfl, fun _ _ _ => ⟨rfl, fun _ => rfl⟩⟩
theorem staDp (o1 : Byte) : Statement (.staDp o1) :=
  ⟨_, rfl, rfl, fun _ _ _ => ⟨rfl, fun _ => rfl⟩⟩
theorem stxDp (o1 : Byte) : Statement (.stxDp o1) :=
  ⟨_, rfl, rfl, fun _ _ _ => ⟨rfl, fun _ => rfl⟩⟩
theorem staDpIndLong (o1 : Byte) : Statement (.staDpIndLong o1) :=
  ⟨_, rfl, rfl, fun _ _ _ => ⟨rfl, fun _ => rfl⟩⟩
theorem bitImm (k : Word) : Statement (.bitImm k) :=
  ⟨_, rfl, rfl, fun wm _ h => ⟨(imm_immBytes wm k h).1, fun rest => congrArg Instr.bitImm ((imm_immBytes wm k h).2 rest)⟩⟩
theorem styAbs (a : Word) : Statement (.styAbs a) :=
  ⟨_, rfl, rfl, fun _ _ _ => ⟨rfl, fun _ => congrArg Instr.styAbs (wordOf_lowByte_highByte a)⟩⟩
theorem staAbs (a : Word) : Statement (.staAbs a) :=
  ⟨_, rfl, rfl, fun _ _ _ => ⟨rfl, fun _ => congrArg Instr.staAbs (wordOf_lowByte_highByte a)⟩⟩
theorem stxAbs (a : Word) : Statement (.stxAbs a) :=
  ⟨_, rfl, rfl, fun _ _ _ => ⟨rfl, fun _ => congrArg Instr.stxAbs (wordOf_lowByte_highByte a)⟩⟩
theorem staLong (l : Addr) : Statement (.staLong l) :=
  ⟨_, rfl, rfl, fun _ _ _ => ⟨rfl, fun _ => congrArg Instr.staLong (addrOf_bytes l)⟩⟩
theorem bcc (rel : Byte) : Statement (.bcc rel) :=
  ⟨_, rfl, rfl, fun _ _ _ => ⟨rfl, fun _ => rfl⟩⟩
theorem staDpIndY (o1 : Byte) : Statement (.staDpIndY o1) :=
  ⟨_, rfl, rfl, fun _ _ _ => ⟨rfl, fun _ => rfl⟩⟩
theorem staDpInd (o1 : Byte) : Statement (.staDpInd o1) :=
  ⟨_, rfl, rfl, fun _ _ _ => ⟨rfl, fun _ => rfl⟩⟩
theorem staSrIndY (o1 : Byte) : Statement (.staSrIndY o1) :=
  ⟨_, rfl, rfl, fun _ _ _ => ⟨rfl, fun _ => rfl⟩⟩
theorem styDpX (o1 : Byte) : Statement (.styDpX o1) :=
  ⟨_, rfl, rfl, fun _ _ _ => ⟨rfl, fun _ => rfl⟩⟩
theorem staDpX (o1 : Byte) : Statement (.staDpX o1) :=
  ⟨_, rfl, rfl, fun _ _ _ => ⟨rfl, fun _ => rfl⟩⟩
theorem stxDpY (o1 : Byte) : Statement (.stxDpY o1) :=
  ⟨_, rfl, rfl, fun _ _ _ => ⟨rfl, fun _ => rfl⟩⟩
theorem staDpIndLongY (o1 : Byte) : Statement (.staDpIndLongY o1) :=
  ⟨_, rfl, rfl, fun _ _ _ => ⟨rfl, fun _ => rfl⟩⟩
theorem staAbsY (a : Word) : Statement (.staAbsY a) :=
  ⟨_, rfl, rfl, fun _ _ _ => ⟨rfl, fun _ => congrArg Instr.staAbsY (wordOf_lowByte_highByte a)⟩⟩
theorem stzAbs (a : Word) : Statement (.stzAbs a) :=
  ⟨_, rfl, rfl, fun _ _ _ => ⟨rfl, fun _ => congrArg Instr.stzAbs (wordOf_lowByte_highByte a)⟩⟩
theorem staAbsX (a : Word) : Statement (.staAbsX a) :=
  ⟨_, rfl, rfl, fun _ _ _ => ⟨rfl, fun _ => congrArg Instr.staAbsX (wordOf_lowByte_highByte a)⟩⟩
theorem stzAbsX (a : Word) : Statement (.stzAbsX a) :=
  ⟨_, rfl, rfl, fun _ _ _ => ⟨rfl, fun _ => congrArg Instr.stzAbsX (wordOf_lowByte_highByte a)⟩⟩
theorem staLongX (l : Addr) : Statement (.staLongX l) :=
  ⟨_, rfl, rfl, fun _ _ _ => ⟨rfl, fun _ => congrArg Instr.staLongX (addrOf_bytes l)⟩⟩
theorem ldyImm (k : Word) : Statement (.ldyImm k) :=
  ⟨_, rfl, rfl, fun _ wx h => ⟨(imm_immBytes wx k h).1, fun rest => congrArg Instr.ldyImm ((imm_immBytes wx k h).2 rest)⟩⟩
theorem ldaDpXInd (o1 : Byte) : Statement (.ldaDpXInd o1) :=
  ⟨_, rfl, rfl, fun _ _ _ => ⟨rfl, fun _ => rfl⟩⟩
theorem ldxImm (k : Word) : Statement (.ldxImm k) :=
  ⟨_, rfl, rfl, fun _ wx h => ⟨(imm_immBytes wx k h).1, fun rest => congrArg Instr.ldxImm ((imm_immBytes wx k h).2 rest)⟩⟩
theorem ldaSr (o1 : Byte) : Statement (.ldaSr o1) :=
  ⟨_, rfl, rfl, fun _ _ _ => ⟨rfl, fun _ => rfl⟩⟩
theorem ldyDp (o1 : Byte) : Statement (.ldyDp o1) :=
  ⟨_, rfl, rfl, fun _ _ _ => ⟨rfl, fun _ => rfl⟩⟩
theorem ldaDp (o1 : Byte) : Statement (.ldaDp o1) :=
  ⟨_, rfl, rfl, fun _ _ _ => ⟨rfl, fun _ => rfl⟩⟩
theorem ldxDp (o1 : Byte) : Statement (.ldxDp o1) :=
  ⟨_, rfl, rfl, fun _ _ _ => ⟨rfl, fun _ => rfl⟩⟩
theorem ldaDpIndLong (o1 : Byte) : Statement (.ldaDpIndLong o1) :=
  ⟨_, rfl, rfl, fun _ _ _ => ⟨rfl, fun _ => rfl⟩⟩
theorem ldaImm (k : Word) : Statement (.ldaImm k) :=
  ⟨_, rfl, rfl, fun wm _ h => ⟨(imm_immBytes wm k h).1, fun rest => congrArg Instr.ldaImm ((imm_immBytes wm k h).2 rest)⟩⟩
theorem ldyAbs (a : Word) : Statement (.ldyAbs a) :=
  ⟨_, rfl, rfl, fun _ _ _ => ⟨rfl, fun _ => congrArg Instr.ldyAbs (wordOf_lowByte_highByte a)⟩⟩
theorem ldaAbs (a : Word) : Statement (.ldaAbs a) :=
  ⟨_, rfl, rfl, fun _ _ _ => ⟨rfl, fun _ => congrArg Instr.ldaAbs (wordOf_lowByte_highByte a)⟩⟩
theorem ldxAbs (a : Word) : Statement (.ldxAbs a) :=
  ⟨_, rfl, rfl, fun _ _ _ => ⟨rfl, fun _ => congrArg Instr.ldxAbs (wordOf_lowByte_highByte a)⟩⟩
theorem ldaLong (l : Addr) : Statement (.ldaLong l) :=
  ⟨_, rfl, rfl, fun _ _ _ => ⟨rfl, fun _ => congrArg Instr.ldaLong (addrOf_bytes l)⟩⟩
theorem bcs (rel : Byte) : Statement (.bcs rel) :=
  ⟨_, rfl, rfl, fun _ _ _ => ⟨rfl, fun _ => rfl⟩⟩
theorem ldaDpIndY (o1 : Byte) : Statement (.ldaDpIndY o1) :=
  ⟨_, rfl, rfl, fun _ _ _ => ⟨rfl, fun _ => rfl⟩⟩
theorem ldaDpInd (o1 : Byte) : Statement (.ldaDpInd o1) :=
  ⟨_, rfl, rfl, fun _ _ _ => ⟨rfl, fun _ => rfl⟩⟩
theorem ldaSrIndY (o1 : Byte) : Statement (.ldaSrIndY o1) :=
  ⟨_, rfl, rfl, fun _ _ _ => ⟨rfl, fun _ => rfl⟩⟩
theorem ldyDpX (o1 : Byte) : Statement (.ldyDpX o1) :=
  ⟨_, rfl, rfl, fun _ _ _ => ⟨rfl, fun _ => rfl⟩⟩
theorem ldaDpX (o1 : Byte) : Statement (.ldaDpX o1) :=
  ⟨_, rfl, rfl, fun _ _ _ => ⟨rfl, fun _ => rfl⟩⟩
theorem ldxDpIdx (o1 : Byte) : Statement (.ldxDpIdx o1) :=
  ⟨_, rfl, rfl, fun _ _ _ => ⟨rfl, fun _ => rfl⟩⟩
theorem ldaDpIndLongY (o1 : Byte) : Statement (.ldaDpIndLongY o1) :=
  ⟨_, rfl, rfl, fun _ _ _ => ⟨rfl, fun _ => rfl⟩⟩
theorem ldaAbsY (a : Word) : Statement (.ldaAbsY a) :=
  ⟨_, rfl, rfl, fun _ _ _ => ⟨rfl, fun _ => congrArg Instr.ldaAbsY (wordOf_lowByte_highByte a)⟩⟩
theorem ldyAbsX (a : Word) : Statement (.ldyAbsX a) :=
  ⟨_, rfl, rfl, fun _ _ _ => ⟨rfl, fun _ => congrArg Instr.ldyAbsX (wordOf_lowByte_highByte a)⟩⟩
theorem ldaAbsX (a : Word) : Statement (.ldaAbsX a) :=
  ⟨_, rfl, rfl, fun _ _ _ => ⟨rfl, fun _ => congrArg Instr.ldaAbsX (wordOf_lowByte_highByte a)⟩⟩
theorem ldxAbsIdx (a : Word) : Statement (.ldxAbsIdx a) :=
  ⟨_, rfl, rfl, fun _ _ _ => ⟨rfl, fun _ => congrArg Instr.ldxAbsIdx (wordOf_lowByte_highByte a)⟩⟩
theorem ldaLongX (l : Addr) : Statement (.ldaLongX l) :=
  ⟨_, rfl, rfl, fun _ _ _ => ⟨rfl, fun _ => congrArg Instr.ldaLongX (addrOf_bytes l)⟩⟩
theorem cpyImm (k : Word) : Statement (.cpyImm k) :=
  ⟨_, rfl, rfl, fun _ wx h => ⟨(imm_immBytes wx k h).1, fun rest => congrArg Instr.cpyImm ((imm_immBytes wx k h).2 rest)⟩⟩
theorem cmpDpXInd (o1 : Byte) : Statement (.cmpDpXInd o1) :=
  ⟨_, rfl, rfl, fun _ _ _ => ⟨rfl, fun _ => rfl⟩⟩
theorem rep (k : Byte) : Statement (.rep k) :=
  ⟨_, rfl, rfl, fun _ _ _ => ⟨rfl, fun _ => rfl⟩⟩
theorem cmpSr (o1 : Byte) : Statement (.cmpSr o1) :=
  ⟨_, rfl, rfl, fun _ _ _ => ⟨rfl, fun _ => rfl⟩⟩
theorem cpyDp (o1 : Byte) : Statement (.cpyDp o1) :=
  ⟨_, rfl, rfl, fun _ _ _ => ⟨rfl, fun _ => rfl⟩⟩
theorem cmpDp (o1 : Byte) : Statement (.cmpDp o1) :=
  ⟨_, rfl, rfl, fun _ _ _ => ⟨rfl, fun _ => rfl⟩⟩
theorem decDp (o1 : Byte) : Statement (.decDp o1) :=
  ⟨_, rfl, rfl, fun _ _ _ => ⟨rfl, fun _ => rfl⟩⟩
theorem cmpDpIndLong (o1 : Byte) : Statement (.cmpDpIndLong o1) :=
  ⟨_, rfl, rfl, fun _ _ _ => ⟨rfl, fun _ => rfl⟩⟩
theorem cmpImm (k : Word) : Statement (.cmpImm k) :=
  ⟨_, rfl, rfl, fun wm _ h => ⟨(imm_immBytes wm k h).1, fun rest => congrArg Instr.cmpImm ((imm_immBytes wm k h).2 rest)⟩⟩
theorem cpyAbs (a : Word) : Statement (.cpyAbs a) :=
  ⟨_, rfl, rfl, fun _ _ _ => ⟨rfl, fun _ => congrArg Instr.cpyAbs (wordOf_lowByte_highByte a)⟩⟩
theorem cmpAbs (a : Word) : Statement (.cmpAbs a) :=
  ⟨_, rfl, rfl, fun _ _ _ => ⟨rfl, fun _ => congrArg Instr.cmpAbs (wordOf_lowByte_highByte a)⟩⟩
theorem decAbs (a : Word) : Statement (.decAbs a) :=
  ⟨_, rfl, rfl, fun _ _ _ => ⟨rfl, fun _ => congrArg Instr.decAbs (wordOf_lowByte_highByte a)⟩⟩
theorem cmpLong (l : Addr) : Statement (.cmpLong l) :=
  ⟨_, rfl, rfl, fun _ _ _ => ⟨rfl, fun _ => congrArg Instr.cmpLong (addrOf_bytes l)⟩⟩
theorem bne (rel : Byte) : Statement (.bne rel) :=
  ⟨_, rfl, rfl, fun _ _ _ => ⟨rfl, fun _ => rfl⟩⟩
theorem cmpDpIndY (o1 : Byte) : Statement (.cmpDpIndY o1) :=
  ⟨_, rfl, rfl, fun _ _ _ => ⟨rfl, fun _ => rfl⟩⟩
theorem cmpDpInd (o1 : Byte) : Statement (.cmpDpInd o1) :=
  ⟨_, rfl, rfl, fun _ _ _ => ⟨rfl, fun _ => rfl⟩⟩
theorem cmpSrIndY (o1 : Byte) : Statement (.cmpSrIndY o1) :=
  ⟨_, rfl, rfl, fun _ _ _ => ⟨rfl, fun _ => rfl⟩⟩
theorem pei (o1 : Byte) : Statement (.pei o1) :=
  ⟨_, rfl, rfl, fun _ _ _ => ⟨rfl, fun _ => rfl⟩⟩
theorem cmpDpX (o1 : Byte) : Statement (.cmpDpX o1) :=
  ⟨_, rfl, rfl, fun _ _ _ => ⟨rfl, fun _ => rfl⟩⟩
theorem decDpX (o1 : Byte) : Statement (.decDpX o1) :=
  ⟨_, rfl, rfl, fun _ _ _ => ⟨rfl, fun _ => rfl⟩⟩
theorem cmpDpIndLongY (o1 : Byte) : Statement (.cmpDpIndLongY o1) :=
  ⟨_, rfl, rfl, fun _ _ _ => ⟨rfl, fun _ => rfl⟩⟩
theorem cmpAbsY (a : Word) : Statement (.cmpAbsY a) :=
  ⟨_, rfl, rfl, fun _ _ _ => ⟨rfl, fun _ => congrArg Instr.cmpAbsY (wordOf_lowByte_highByte a)⟩⟩
theorem jmpAbsIndLong (a : Word) : Statement (.jmpAbsIndLong a) :=
  ⟨_, rfl, rfl, fun _ _ _ => ⟨rfl, fun _ => congrArg Instr.jmpAbsIndLong (wordOf_lowByte_highByte a)⟩⟩
theorem cmpAbsX (a : Word) : Statement (.cmpAbsX a) :=
  ⟨_, rfl, rfl, fun _ _ _ => ⟨rfl, fun _ => congrArg Instr.cmpAbsX (wordOf_lowByte_highByte a)⟩⟩
theorem decAbsX (a : Word) : Statement (.decAbsX a) :=
  ⟨_, rfl, rfl, fun _ _ _ => ⟨rfl, fun _ => congrArg Instr.decAbsX (wordOf_lowByte_highByte a)⟩⟩
theorem cmpLongX (l : Addr) : Statement (.cmpLongX l) :=
  ⟨_, rfl, rfl, fun _ _ _ => ⟨rfl, fun _ => congrArg Instr.cmpLongX (addrOf_bytes l)⟩⟩
theorem cpxImm (k : Word) : Statement (.cpxImm k) :=
  ⟨_, rfl, rfl, fun _ wx h => ⟨(imm_immBytes wx k h).1, fun rest => congrArg Instr.cpxImm ((imm_immBytes wx k h).2 rest)⟩⟩
theorem sbcDpXInd (o1 : Byte) : Statement (.sbcDpXInd o1) :=
  ⟨_, rfl, rfl, fun _ _ _ => ⟨rfl, fun _ => rfl⟩⟩
theorem sep (k : Byte) : Statement (.sep k) :=
  ⟨_, rfl, rfl, fun _ _ _ => ⟨rfl, fun _ => rfl⟩⟩
theorem sbcSr (o1 : Byte) : Statement (.sbcSr o1) :=
  ⟨_, rfl, rfl, fun _ _ _ => ⟨rfl, fun _ => rfl⟩⟩
theorem cpxDp (o1 : Byte) : Statement (.cpxDp o1) :=
  ⟨_, rfl, rfl, fun _ _ _ => ⟨rfl, fun _ => rfl⟩⟩
theorem sbcDp (o1 : Byte) : Statement (.sbcDp o1) :=
  ⟨_, rfl, rfl, fun _ _ _ => ⟨rfl, fun _ => rfl⟩⟩
theorem incDp (o1 : Byte) : Statement (.incDp o1) :=
  ⟨_, rfl, rfl, fun _ _ _ => ⟨rfl, fun _ => rfl⟩⟩
theorem sbcDpIndLong (o1 : Byte) : Statement (.sbcDpIndLong o1) :=
  ⟨_, rfl, rfl, fun _ _ _ => ⟨rfl, fun _ => rfl⟩⟩
theorem sbcImm (k : Word) : Statement (.sbcImm k) :=
  ⟨_, rfl, rfl, fun wm _ h => ⟨(imm_immBytes wm k h).1, fun rest => congrArg Instr.sbcImm ((imm_immBytes wm k h).2 rest)⟩⟩
theorem cpxAbs (a : Word) : Statement (.cpxAbs a) :=
  ⟨_, rfl, rfl, fun _ _ _ => ⟨rfl, fun _ => congrArg Instr.cpxAbs (wordOf_lowByte_highByte a)⟩⟩
theorem sbcAbs (a : Word) : Statement (.sbcAbs a) :=
  ⟨_, rfl, rfl, fun _ _ _ => ⟨rfl, fun _ => congrArg Instr.sbcAbs (wordOf_lowByte_highByte a)⟩⟩
theorem incAbs (a : Word) : Statement (.incAbs a) :=
  ⟨_, rfl, rfl, fun _ _ _ => ⟨rfl, fun _ => congrArg Instr.incAbs (wordOf_lowByte_highByte a)⟩⟩
theorem sbcLong (l : Addr) : Statement (.sbcLong l) :=
  ⟨_, rfl, rfl, fun _ _ _ => ⟨rfl, fun _ => congrArg Instr.sbcLong (addrOf_bytes l)⟩⟩
theorem beq (rel : Byte) : Statement (.beq rel) :=
  ⟨_, rfl, rfl, fun _ _ _ => ⟨rfl, fun _ => rfl⟩⟩
theorem sbcDpIndY (o1 : Byte) : Statement (.sbcDpIndY o1) :=
  ⟨_, rfl, rfl, fun _ _ _ => ⟨rfl, fun _ => rfl⟩⟩
theorem sbcDpInd (o1 : Byte) : Statement (.sbcDpInd o1) :=
  ⟨_, rfl, rfl, fun _ _ _ => ⟨rfl, fun _ => rfl⟩⟩
theorem sbcSrIndY (o1 : Byte) : Statement (.sbcSrIndY o1) :=
  ⟨_, rfl, rfl, fun _ _ _ => ⟨rfl, fun _ => rfl⟩⟩
theorem pea (a : Word) : Statement (.pea a) :=
  ⟨_, rfl, rfl, fun _ _ _ => ⟨rfl, fun _ => congrArg Instr.pea (wordOf_lowByte_highByte a)⟩⟩
theorem sbcDpX (o1 : Byte) : Statement (.sbcDpX o1) :=
  ⟨_, rfl, rfl, fun _ _ _ => ⟨rfl, fun _ => rfl⟩⟩
theorem incDpX (o1 : Byte) : Statement (.incDpX o1) :=
  ⟨_, rfl, rfl, fun _ _ _ => ⟨rfl, fun _ => rfl⟩⟩
theorem sbcDpIndLongY (o1 : Byte) : Statement (.sbcDpIndLongY o1) :=
  ⟨_, rfl, rfl, fun _ _ _ => ⟨rfl, fun _ => rfl⟩⟩
theorem sbcAbsY (a : Word) : Statement (.sbcAbsY a) :=
  ⟨_, rfl, rfl, fun _ _ _ => ⟨rfl, fun _ => congrArg Instr.sbcAbsY (wordOf_lowByte_highByte a)⟩⟩
theorem jsrAbsXInd (a : Word) : Statement (.jsrAbsXInd a) :=
  ⟨_, rfl, rfl, fun _ _ _ => ⟨rfl, fun _ => congrArg Instr.jsrAbsXInd (wordOf_lowByte_highByte a)⟩⟩
theorem sbcAbsX (a : Word) : Statement (.sbcAbsX a) :=
  ⟨_, rfl, rfl, fun _ _ _ => ⟨rfl, fun _ => congrArg Instr.sbcAbsX (wordOf_lowByte_highByte a)⟩⟩
theorem incAbsX (a : Word) : Statement (.incAbsX a) :=
  ⟨_, rfl, rfl, fun _ _ _ => ⟨rfl, fun _ => congrArg Instr.incAbsX (wordOf_lowByte_highByte a)⟩⟩
theorem sbcLongX (l : Addr) : Statement (.sbcLongX l) :=
  ⟨_, rfl, rfl, fun _ _ _ => ⟨rfl, fun _ => congrArg Instr.sbcLongX (addrOf_bytes l)⟩⟩
theorem php : Statement .php :=
  ⟨_, rfl, rfl, fun _ _ _ => ⟨rfl, fun _ => rfl⟩⟩
theorem aslA : Statement .aslA :=
  ⟨_, rfl, rfl, fun _ _ _ => ⟨rfl, fun _ => rfl⟩⟩
theorem phd : Statement .phd :=
  ⟨_, rfl, rfl, fun _ _ _ => ⟨rfl, fun _ => rfl⟩⟩
theorem clc : Statement .clc :=
  ⟨_, rfl, rfl, fun _ _ _ => ⟨rfl, fun _ => rfl⟩⟩
theorem incA : Statement .incA :=
  ⟨_, rfl, rfl, fun _ _ _ => ⟨rfl, fun _ => rfl⟩⟩
theorem tcs : Statement .tcs :=
  ⟨_, rfl, rfl, fun _ _ _ => ⟨rfl, fun _ => rfl⟩⟩
theorem plp : Statement .plp :=
  ⟨_, rfl, rfl, fun _ _ _ => ⟨rfl, fun _ => rfl⟩⟩
theorem rolA : Statement .rolA :=
  ⟨_, rfl, rfl, fun _ _ _ => ⟨rfl, fun _ => rfl⟩⟩
theorem pld : Statement .pld :=
  ⟨_, rfl, rfl, fun _ _ _ => ⟨rfl, fun _ => rfl⟩⟩
theorem sec : Statement .sec :=
  ⟨_, rfl, rfl, fun _ _ _ => ⟨rfl, fun _ => rfl⟩⟩
theorem decA : Statement .decA :=
  ⟨_, rfl, rfl, fun _ _ _ => ⟨rfl, fun _ => rfl⟩⟩
theorem tsc : Statement .tsc :=
  ⟨_, rfl, rfl, fun _ _ _ => ⟨rfl, fun _ => rfl⟩⟩
theorem rti : Statement .rti :=
  ⟨_, rfl, rfl, fun _ _ _ => ⟨rfl, fun _ => rfl⟩⟩
theorem pha : Statement .pha :=
  ⟨_, rfl, rfl, fun _ _ _ => ⟨rfl, fun _ => rfl⟩⟩
theorem lsrA : Statement .lsrA :=
  ⟨_, rfl, rfl, fun _ _ _ => ⟨rfl, fun _ => rfl⟩⟩
theorem phk : Statement .phk :=
  ⟨_, rfl, rfl, fun _ _ _ => ⟨rfl, fun _ => rfl⟩⟩
theorem cli : Statement .cli :=
  ⟨_, rfl, rfl, fun _ _ _ => ⟨rfl, fun _ => rfl⟩⟩
theorem phy : Statement .phy :=
  ⟨_, rfl, rfl, fun _ _ _ => ⟨rfl, fun _ => rfl⟩⟩
theorem tcd : Statement .tcd :=
  ⟨_, rfl, rfl, fun _ _ _ => ⟨rfl, fun _ => rfl⟩⟩
theorem rts : Statement .rts :=
  ⟨_, rfl, rfl, fun _ _ _ => ⟨rfl, fun _ => rfl⟩⟩
theorem pla : Statement .pla :=
  ⟨_, rfl, rfl, fun _ _ _ => ⟨rfl, fun _ => rfl⟩⟩
theorem rorA : Statement .rorA :=
  ⟨_, rfl, rfl, fun _ _ _ => ⟨rfl, fun _ => rfl⟩⟩
theorem rtl : Statement .rtl :=
  ⟨_, rfl, rfl, fun _ _ _ => ⟨rfl, fun _ => rfl⟩⟩
theorem sei : Statement .sei :=
  ⟨_, rfl, rfl, fun _ _ _ => ⟨rfl, fun _ => rfl⟩⟩
theorem ply : Statement .ply :=
  ⟨_, rfl, rfl, fun _ _ _ => ⟨rfl, fun _ => rfl⟩⟩
theorem tdc : Statement .tdc :=
  ⟨_, rfl, rfl, fun _ _ _ => ⟨rfl, fun _ => rfl⟩⟩
theorem dey : Statement .dey :=
  ⟨_, rfl, rfl, fun _ _ _ => ⟨rfl, fun _ => rfl⟩⟩
theorem txa : Statement .txa :=
  ⟨_, rfl, rfl, fun _ _ _ => ⟨rfl, fun _ => rfl⟩⟩
theorem phb : Statement .phb :=
  ⟨_, rfl, rfl, fun _ _ _ => ⟨rfl, fun _ => rfl⟩⟩
theorem tya : Statement .tya :=
  ⟨_, rfl, rfl, fun _ _ _ => ⟨rfl, fun _ => rfl⟩⟩
theorem txs : Statement .txs :=
  ⟨_, rfl, rfl, fun _ _ _ => ⟨rfl, fun _ => rfl⟩⟩
theorem txy : Statement .txy :=
  ⟨_, rfl, rfl, fun _ _ _ => ⟨rfl, fun _ => rfl⟩⟩
theorem tay : Statement .tay :=
  ⟨_, rfl, rfl, fun _ _ _ => ⟨rfl, fun _ => rfl⟩⟩
theorem tax : Statement .tax :=
  ⟨_, rfl, rfl, fun _ _ _ => ⟨rfl, fun _ => rfl⟩⟩
theorem plb : Statement .plb :=
  ⟨_, rfl, rfl, fun _ _ _ => ⟨rfl, fun _ => rfl⟩⟩
theorem clv : Statement .clv :=
  ⟨_, rfl, rfl, fun _ _ _ => ⟨rfl, fun _ => rfl⟩⟩
theorem tsx : Statement .tsx :=
  ⟨_, rfl, rfl, fun _ _ _ => ⟨rfl, fun _ => rfl⟩⟩
theorem tyx : Statement .tyx :=
  ⟨_, rfl, rfl, fun _ _ _ => ⟨rfl, fun _ => rfl⟩⟩
theorem iny : Statement .iny :=
  ⟨_, rfl, rfl, fun _ _ _ => ⟨rfl, fun _ => rfl⟩⟩
theorem dex : Statement .dex :=
  ⟨_, rfl, rfl, fun _ _ _ => ⟨rfl, fun _ => rfl⟩⟩
theorem wai : Statement .wai :=
  ⟨_, rfl, rfl, fun _ _ _ => ⟨rfl, fun _ => rfl⟩⟩
theorem cld : Statement .cld :=
  ⟨_, rfl, rfl, fun _ _ _ => ⟨rfl, fun _ => rfl⟩⟩
theorem phx : Statement .phx :=
  ⟨_, rfl, rfl, fun _ _ _ => ⟨rfl, fun _ => rfl⟩⟩
theorem stp : Statement .stp :=
  ⟨_, rfl, rfl, fun _ _ _ => ⟨rfl, fun _ => rfl⟩⟩
theorem inx : Statement .inx :=
  ⟨_, rfl, rfl, fun _ _ _ => ⟨rfl, fun _ => rfl⟩⟩
theorem nop : Statement .nop :=
  ⟨_, rfl, rfl, fun _ _ _ => ⟨rfl, fun _ => rfl⟩⟩
theorem xba : Statement .xba :=
  ⟨_, rfl, rfl, fun _ _ _ => ⟨rfl, fun _ => rfl⟩⟩
theorem sed : Statement .sed :=
  ⟨_, rfl, rfl, fun _ _ _ => ⟨rfl, fun _ => rfl⟩⟩
theorem plx : Statement .plx :=
  ⟨_, rfl, rfl, fun _ _ _ => ⟨rfl, fun _ => rfl⟩⟩
theorem xce : Statement .xce :=
  ⟨_, rfl, rfl, fun _ _ _ => ⟨rfl, fun _ => rfl⟩⟩

end Sys2Proof.Laws.Encodes
end

