-- ==== Sys2Proof/Laws/Stack.lean ====
section
/-! SUPPORT. Pushes and pulls of several bytes in one: where each byte lies, where S ends, and that nothing else changes. -/

namespace Sys2Proof.Machine

/-! ## Where S points -/

theorem emulationForced_sp {s : State} (h : s.emulationForced = true) (he : s.emulation = true) :
    s.sp.toNat / 256 = 1 := by
  have h1 : highByte s.sp = 1 := by
    simp only [State.emulationForced, he, Bool.not_true, Bool.false_or, Bool.and_eq_true, beq_iff_eq] at h
    exact h.1.1
  have := congrArg BitVec.toNat h1
  simpa using this

theorem stackAddr_eq_pushSlot {s : State} (h : s.emulationForced = true) : s.stackAddr = s.pushSlot 0 := by
  have hs := s.sp.isLt
  apply BitVec.eq_of_toNat_eq
  unfold State.stackAddr State.pushSlot
  cases he : s.emulation
  · have h8 : s.is816 = true := by
      simp only [State.emulation, Bool.or_eq_false_iff, Bool.not_eq_false'] at he
      exact he.1
    simp [h8]; omega
  · have := emulationForced_sp h he
    cases s.is816 <;> simp <;> omega

/-- The step of S, in numbers. -/
theorem toNat_moveS (s : State) (n : Word) :
    (s.moveS n).sp.toNat =
      if s.emulation then 256 + (s.sp.toNat + n.toNat) % 256 else (s.sp.toNat + n.toNat) % 65536 := by
  unfold State.moveS
  split
  · simp
  · simp

@[simp] theorem State.emulationForced_congr {s t : State} (hc : t.cfg = s.cfg) (he : t.e = s.e) (hp : t.p = s.p)
    (hs : highByte t.sp = highByte s.sp) : t.emulationForced = s.emulationForced := by
  simp [State.emulationForced, State.emulation_congr hc he, State.flag_congr hp, hs]

theorem emulationForced_moveS {s : State} (h : s.emulationForced = true) (n : Word) :
    (s.moveS n).emulationForced = true := by
  cases he : s.emulation
  · simp [State.emulationForced, he]
  · simp only [State.emulationForced, State.emulation_moveS, State.flag_moveS, he, Bool.not_true, Bool.false_or,
      Bool.and_eq_true, beq_iff_eq] at h ⊢
    refine ⟨⟨?_, h.1.2⟩, h.2⟩
    apply BitVec.eq_of_toNat_eq
    rw [toNat_highByte, toNat_moveS, he]
    simp

theorem emulationForced_stored8 {s : State} (h : s.emulationForced = true) (a : Addr) (b : Byte) :
    (stored8 a b s).emulationForced = true := by
  rw [onlyMem_stored8 a b s]; exact h

/-! ## Pushes -/

/-- Push the bytes of a list, one after the other. -/
def pushAll : List Byte → State → Access Unit
  | [], s => .ok () s
  | b :: bs, s => (push8 b s).bind fun _ s1 => pushAll bs s1

theorem pushAll_append (bs cs : List Byte) (s : State) :
    pushAll (bs ++ cs) s = (pushAll bs s).bind fun _ s1 => pushAll cs s1 := by
  induction bs generalizing s with
  | nil => rfl
  | cons b bs ih =>
    simp only [List.cons_append, pushAll]
    cases push8 b s with
    | ok u t => exact ih t
    | stop r => rfl

theorem Access.bind_unit (x : Access Unit) : (x.bind fun _ s => .ok () s) = x := by cases x <;> rfl

theorem push8_eq_pushAll (b : Byte) (s : State) : push8 b s = pushAll [b] s := (Access.bind_unit _).symm

theorem push16_eq_pushAll (v : Word) (s : State) : push16 v s = pushAll [highByte v, lowByte v] s := by
  unfold push16 pushAll
  cases push8 (highByte v) s with
  | ok u t => exact push8_eq_pushAll _ t
  | stop r => rfl

theorem pushW_eq_pushAll (w : Width) (v : Word) (s : State) :
    pushW w v s = pushAll (match w with | .w8 => [lowByte v] | .w16 => [highByte v, lowByte v]) s := by
  cases w
  · exact push8_eq_pushAll _ s
  · exact push16_eq_pushAll v s

/-- PBR, then a return address: the pushes of JSL. -/
theorem push8_push16_eq_pushAll (b : Byte) (v : Word) (s : State) :
    ((push8 b s).bind fun _ s1 => push16 v s1) = pushAll [b, highByte v, lowByte v] s := by
  simp only [push16_eq_pushAll]; rfl

/-- The pushes of interrupt entry are its frame, byte by byte. -/
theorem pushFrame_eq_pushAll (k : IntKind) (ret : Word) (s : State) :
    pushFrame k ret s = pushAll (s.frameBytes k ret) s := by
  have hp : s.pushedP k = s.frameP k := by
    unfold State.pushedP State.frameP
    cases k <;> cases s.emulation <;> rfl
  unfold pushFrame State.frameBytes
  rw [hp]
  cases s.emulation
  · simp only [Bool.false_eq_true, if_false, List.singleton_append, pushAll, push16_eq_pushAll]
    cases push8 s.pbr s with
    | ok u t =>
      simp only [Access.bind_ok]
      cases push8 (highByte ret) t with
      | ok u t =>
        simp only [Access.bind_ok]
        cases push8 (lowByte ret) t with
        | ok u t => exact push8_eq_pushAll _ t
        | stop r => rfl
      | stop r => rfl
    | stop r => rfl
  · simp only [if_true, List.nil_append, Access.bind_ok, pushAll, push16_eq_pushAll]
    cases push8 (highByte ret) s with
    | ok u t =>
      simp only [Access.bind_ok]
      cases push8 (lowByte ret) t with
      | ok u t => exact push8_eq_pushAll _ t
      | stop r => rfl
    | stop r => rfl

@[simp] theorem pushed8_cfg (b : Byte) (s : State) : (pushed8 b s).cfg = s.cfg := by simp [pushed8]

/-- A push changes memory and S only. -/
theorem pushed8_eq (b : Byte) (s : State) : pushed8 b s = { s with mem := (pushed8 b s).mem, sp := (pushed8 b s).sp } := by
  unfold pushed8 State.moveS
  rw [onlyMem_stored8 s.stackAddr b s]
  split <;> rfl

theorem pushed8_emulation (b : Byte) (s : State) : (pushed8 b s).emulation = s.emulation := by
  rw [pushed8_eq b s]; rfl

theorem pushed8_emulationForced {s : State} (h : s.emulationForced = true) (b : Byte) :
    (pushed8 b s).emulationForced = true := emulationForced_moveS (emulationForced_stored8 h _ _) _

theorem toNat_pushed8_sp (b : Byte) (s : State) :
    (pushed8 b s).sp.toNat =
      if s.emulation then 256 + (s.sp.toNat + 65535) % 256 else (s.sp.toNat + 65535) % 65536 := by
  unfold pushed8
  rw [toNat_moveS]
  have h1 : (stored8 s.stackAddr b s).emulation = s.emulation := by rw [onlyMem_stored8 s.stackAddr b s]; rfl
  have h2 : (stored8 s.stackAddr b s).sp = s.sp := by rw [onlyMem_stored8 s.stackAddr b s]
  rw [h1, h2]; rfl

/-- After a push the next slots are one place lower. -/
theorem pushed8_pushSlot (b : Byte) (s : State) {k : Nat} (hk : k < 256) :
    (pushed8 b s).pushSlot k = s.pushSlot (k + 1) := by
  have hs := s.sp.isLt
  unfold State.pushSlot
  rw [pushed8_emulation, toNat_pushed8_sp]
  congr 1
  apply BitVec.eq_of_toNat_eq
  cases s.emulation <;> simp <;> omega

/-- The slots of 256 pushes in a row are distinct places. -/
theorem busAddr_pushSlot_ne (s : State) {j k : Nat} (hj : j < 256) (hk : k < 256) (h : j ≠ k) :
    busAddr s.cfg (s.pushSlot j) ≠ busAddr s.cfg (s.pushSlot k) := by
  have hs := s.sp.isLt
  intro hb
  have h1 := congrArg BitVec.toNat hb
  unfold busAddr State.pushSlot at h1
  cases he : s.emulation <;> cases ha : s.cfg.memMap.banksAlias <;> simp [he, ha] at h1 <;> omega

/-- Pushing a list of bytes: each in its slot, S below them, memory and S alone changed. -/
theorem pushAll_of_canPush : ∀ (bs : List Byte) (s : State), s.emulationForced = true → bs.length ≤ 200 →
    CanPush bs.length s →
    ∃ t, pushAll bs s = .ok () t ∧ PushedBytes bs s t ∧ t = { s with mem := t.mem, sp := t.sp } ∧ t.emulationForced = true
  | [], s, h, _, _ => by
    refine ⟨s, rfl, ⟨fun k hk => absurd hk (Nat.not_lt_zero k), ?_, fun a _ => rfl⟩, rfl, h⟩
    have hs := s.sp.isLt
    unfold Pushed
    apply BitVec.eq_of_toNat_eq
    cases he : s.emulation
    · simp; omega
    · have := emulationForced_sp h he
      simp; omega
  | b :: bs, s, h, hl, hc => by
    simp only [List.length_cons] at hl hc
    have h0 : NotDevice s s.stackAddr := by rw [stackAddr_eq_pushSlot h]; exact hc 0 (by omega)
    have hcfg : (pushed8 b s).cfg = s.cfg := pushed8_cfg b s
    have hc' : CanPush bs.length (pushed8 b s) := by
      intro k hk
      rw [NotDevice, hcfg, pushed8_pushSlot b s (by omega)]
      exact hc (k + 1) (by omega)
    obtain ⟨t, ht, ⟨hst, hsp, hmem⟩, heq, hf⟩ := pushAll_of_canPush bs (pushed8 b s) (pushed8_emulationForced h b) (by omega) hc'
    have hcell : ∀ a, (pushed8 b s).cell a = (stored8 s.stackAddr b s).cell a := fun a => by
      unfold pushed8; rw [State.cell_moveS]
    refine ⟨t, ?_, ⟨?_, ?_, ?_⟩, ?_, hf⟩
    · simp only [pushAll]; rw [push8_of_notDevice b h0]; exact ht
    · intro k hk
      cases k with
      | zero =>
        have hkeep : t.cell (s.pushSlot 0) = (pushed8 b s).cell (s.pushSlot 0) := by
          apply hmem
          simp only [List.mem_map, List.mem_range]
          rintro a ⟨j, hj, rfl⟩
          rw [pushed8_pushSlot b s (by omega), hcfg]
          exact busAddr_pushSlot_ne s (by omega) (by omega) (by omega)
        unfold Stored
        rw [hkeep, hcell, stackAddr_eq_pushSlot h]
        exact stored_stored8 _ _ _
      | succ k =>
        simp only [List.length_cons] at hk
        have h1 := hst k (by omega)
        unfold Stored at h1 ⊢
        rw [pushed8_pushSlot b s (by omega), hcfg] at h1
        rw [List.getElem_cons_succ, h1]
        split
        · rfl
        · rw [hcell, cell_stored8, stackAddr_eq_pushSlot h, if_neg]
          intro hb
          exact busAddr_pushSlot_ne s (by omega) (by omega) (by omega) hb.1
    · have hs := s.sp.isLt
      have h2 := toNat_pushed8_sp b s
      unfold Pushed at hsp ⊢
      rw [hsp]
      rw [pushed8_emulation, h2]
      apply BitVec.eq_of_toNat_eq
      simp only [List.length_cons]
      cases s.emulation <;> simp <;> omega
    · intro a ha
      have h1 : t.cell a = (pushed8 b s).cell a := by
        apply hmem
        simp only [List.mem_map, List.mem_range]
        rintro c ⟨j, hj, rfl⟩
        rw [pushed8_pushSlot b s (by omega), hcfg]
        exact ha _ (List.mem_map.2 ⟨j + 1, by simp; omega, rfl⟩)
      rw [h1, hcell]
      refine memBut_stored8 _ _ _ a ?_
      simp only [List.mem_singleton, forall_eq]
      rw [stackAddr_eq_pushSlot h]
      exact ha _ (List.mem_map.2 ⟨0, by simp, rfl⟩)
    · rw [heq, pushed8_eq b s]

/-! ## Pulls -/

/-- The `k`th pull from here reads the first slot after `k` steps of S. -/
theorem stackAddr_moveS_one (s : State) : (s.moveS 1).stackAddr = s.pullSlot 1 := by
  have hs := s.sp.isLt
  apply BitVec.eq_of_toNat_eq
  unfold State.stackAddr State.pullSlot
  have hm := toNat_moveS s 1
  have one : (1 : Word).toNat = 1 := rfl
  rw [one] at hm
  cases he : s.emulation
  · have h8 : s.is816 = true := by
      simp only [State.emulation, Bool.or_eq_false_iff, Bool.not_eq_false'] at he
      exact he.1
    rw [he] at hm
    simp only [State.is816_moveS, h8, if_true, toNat_addrOf, hm]
    simp
  · rw [he] at hm
    cases h8 : s.is816
    · simp only [State.is816_moveS, h8, Bool.false_eq_true, if_false, toNat_addrOf, toNat_wordOf, toNat_lowByte, hm, if_true]
      simp
      omega
    · simp only [State.is816_moveS, h8, if_true, toNat_addrOf, hm]
      simp
      omega

/-- After a pull the next slots are one place higher. -/
theorem pullSlot_moveS_one (s : State) (k : Nat) : (s.moveS 1).pullSlot k = s.pullSlot (k + 1) := by
  have hm := toNat_moveS s 1
  have one : (1 : Word).toNat = 1 := rfl
  rw [one] at hm
  unfold State.pullSlot
  rw [State.emulation_moveS, hm]
  congr 1
  apply BitVec.eq_of_toNat_eq
  cases s.emulation <;> simp <;> omega

/-- Two steps of S in one, in numbers. -/
theorem pulled_moveS (s : State) (n : Nat) {t : State} (h : Pulled n (s.moveS 1) t) : Pulled (n + 1) s t := by
  have hm := toNat_moveS s 1
  have one : (1 : Word).toNat = 1 := rfl
  rw [one] at hm
  unfold Pulled at h ⊢
  rw [h, State.emulation_moveS, hm]
  apply BitVec.eq_of_toNat_eq
  cases s.emulation <;> simp <;> omega

theorem pulled_one (s : State) : Pulled 1 s (s.moveS 1) := by
  have hm := toNat_moveS s 1
  have one : (1 : Word).toNat = 1 := rfl
  rw [one] at hm
  unfold Pulled
  apply BitVec.eq_of_toNat_eq
  rw [hm]
  cases s.emulation
  · simp
  · simp; omega

/-- A pull from RAM or ROM. -/
theorem pull8_of_canPull {s : State} (h : Backed s (s.pullSlot 1)) : pull8 s = .ok (s.pulledByte 1) (s.moveS 1) := by
  rw [pull8_of_backed (by rw [stackAddr_moveS_one]; exact h), stackAddr_moveS_one]; rfl

theorem pulledByte_moveS_one (s : State) (k : Nat) : (s.moveS 1).pulledByte k = s.pulledByte (k + 1) := by
  unfold State.pulledByte; rw [State.cell_moveS, pullSlot_moveS_one]

theorem backed_moveS {s : State} {n : Word} {a : Addr} : Backed (s.moveS n) a ↔ Backed s a := by simp [Backed]

theorem pull16_of_canPull {s : State} (h : CanPull 2 s) :
    pull16 s = .ok (wordOf (s.pulledByte 1) (s.pulledByte 2)) ((s.moveS 1).moveS 1) := by
  unfold pull16
  rw [pull8_of_canPull (h 0 (by omega)), Access.bind_ok,
    pull8_of_canPull (by rw [backed_moveS, pullSlot_moveS_one]; exact h 1 (by omega)), Access.bind_ok,
    pulledByte_moveS_one]

/-- A pull of data at width `w` from RAM or ROM, in numbers. -/
theorem pullW_of_canPull {s : State} (w : Width) (h : CanPull (widthBits w / 8) s) :
    ∃ v t, pullW w s = .ok v t ∧ v.toNat = s.pulledW w ∧ v.toNat < modulus w ∧ Pulled (widthBits w / 8) s t ∧
      t = { s with sp := t.sp } := by
  cases w
  · refine ⟨wordOf (s.pulledByte 1) 0, s.moveS 1, ?_, ?_, ?_, pulled_one s, ?_⟩
    · simp only [pullW]; rw [pull8_of_canPull (h 0 (by simp))]; rfl
    · simp [State.pulledW]
    · have := (s.pulledByte 1).isLt
      simp; omega
    · unfold State.moveS; split <;> rfl
  · refine ⟨_, _, pull16_of_canPull h, ?_, BitVec.isLt _, pulled_moveS s 1 (pulled_one _), ?_⟩
    · simp [State.pulledW]; omega
    · unfold State.moveS; split <;> split <;> rfl

/-! ## Loading P -/

/-- What loading P from a pulled byte leaves in P, X and Y. -/
theorem loadsP_loadP (v : Byte) (s : State) : LoadsP v s (s.loadP v) := by
  unfold LoadsP State.loadP
  cases s.emulation
  · simp only [Bool.false_eq_true, if_false, true_and]
    cases hx : getFlag v .x
    · have : v.getLsbD 4 = false := hx
      simp only [Bool.false_eq_true, if_false, this, and_self]
    · have : v.getLsbD 4 = true := hx
      simp only [if_true, this]
      exact ⟨rfl, toNat_trunc .w8 _, toNat_trunc .w8 _⟩
  · simp

/-- Loading P changes P, X and Y only. -/
theorem regsBut_loadP (v : Byte) (s : State) : RegsBut [.x, .y] s (s.loadP v) := by
  intro q hq
  cases q <;> first
    | exact absurd (List.mem_cons_self ..) hq
    | exact absurd (List.mem_cons_of_mem _ (List.mem_cons_self ..)) hq
    | simp [Reg.Same]

end Sys2Proof.Machine
end

