-- ==== Sys2Proof/Tests/Slice0.lean ====
section
/-! SUPPORT. The model's own tests: ill-formed terms that WellFormed refuses; words written from the spec's encodings; one step
of each instruction, with what spec/95_test_vectors.md says of it (the name ends in the vector's number there); interrupts;
and for each statement with hypotheses a state that meets them. -/

namespace Sys2Proof.Tests

open Sys2Proof Sys2Proof.Machine

/-! ## Helpers -/

/-- Put bytes into memory. -/
def poke : List (Addr × Byte) → State → State
  | [], s => s
  | (a, b) :: rest, s => poke rest (s.putCell a b)

/-- A machine about to run the bytes `code` at `pbr:pc`, its other registers 0 and the stack pointer 0x01FF. -/
def start (v : Variant) (e : Bool) (p pbr : Byte) (pc : Word) (code : List Byte) : State :=
  ({ State.resetOn { Config.default with variant := v } with e := e, p := p, pbr := pbr, pc := pc, sp := 0x01FF } :
    State).putProgram 0 code

/-- What `f` sees after one step. -/
def after {α : Type} (s : State) (f : State → α) : Option α :=
  match step s with
  | .next t => some (f t)
  | .fault _ => none
  | .refused _ => none

/-- Why one step is refused. -/
def refusal (s : State) : Option Refusal :=
  match step s with
  | .next _ => none
  | .fault _ => none
  | .refused r => some r

/-- The machine on a platform with these regions. -/
def onMap (regions : List Region) (s : State) : State := { s with cfg := { s.cfg with memMap := ⟨regions, false⟩ } }

/-- The machine with one input of the environment to come. -/
def given (irq nmi reset abort overflow : Bool) (s : State) : State := { s with inputs := [⟨irq, nmi, reset, abort, overflow⟩] }

/-! ## Well-formedness: each check refuses something -/

/-- R96: an opcode of the 65C02 on V6502. -/
theorem test_wf_cmos_opcode_on_v6502 : (Instr.bra 0x10).wellFormed .v6502 .w8 .w8 = false := by decide
/-- R96: an opcode of the 65816 on V65C02. -/
theorem test_wf_816_opcode_on_v65C02 : (Instr.xce).wellFormed .v65C02 .w8 .w8 = false := by decide
/-- R92: a constant of two bytes where WM is 8. -/
theorem test_wf_accumulator_constant_too_wide : (Instr.ldaImm 0x0100).wellFormed .v65816 .w8 .w16 = false := by decide
/-- R92: a constant of two bytes where WX is 8. -/
theorem test_wf_index_constant_too_wide : (Instr.ldyImm 0x0100).wellFormed .v65816 .w16 .w8 = false := by decide
/-- R96: how many opcodes each variant has. -/
theorem test_availability_counts :
    ([Variant.v6502, .v65C02, .v65816].map fun v =>
      ([opcodeRow0, opcodeRow1, opcodeRow2, opcodeRow3, opcodeRow4, opcodeRow5, opcodeRow6, opcodeRow7, opcodeRow8, opcodeRow9,
        opcodeRowA, opcodeRowB, opcodeRowC, opcodeRowD, opcodeRowE, opcodeRowF].map fun row =>
          row.countP fun r => r.avail.on v).sum) = [151, 178, 256] := by decide

/-! ## Decoding: for each opcode a word written from the spec (R90 to R95), with operand bytes 34, 12, 7E -/

/-- Does V65816 at 16-bit widths decode each list of bytes to the instruction beside it, and encode it back? -/
def decodes (l : List (List Byte × Instr)) : Bool :=
  l.all fun e => decode .v65816 .w16 .w16 e.1 == .ok e.2 [] && encode .w16 .w16 e.2 == e.1

theorem test_decode_row_0 : decodes [
    ([0x00, 0x34], .brk 0x34),
    ([0x01, 0x34], .oraDpXInd 0x34),
    ([0x02, 0x34], .cop 0x34),
    ([0x03, 0x34], .oraSr 0x34),
    ([0x04, 0x34], .tsbDp 0x34),
    ([0x05, 0x34], .oraDp 0x34),
    ([0x06, 0x34], .aslDp 0x34),
    ([0x07, 0x34], .oraDpIndLong 0x34),
    ([0x08], .php),
    ([0x09, 0x34, 0x12], .oraImm 0x1234),
    ([0x0A], .aslA),
    ([0x0B], .phd),
    ([0x0C, 0x34, 0x12], .tsbAbs 0x1234),
    ([0x0D, 0x34, 0x12], .oraAbs 0x1234),
    ([0x0E, 0x34, 0x12], .aslAbs 0x1234),
    ([0x0F, 0x34, 0x12, 0x7E], .oraLong 0x7E1234)] = true := by decide

theorem test_decode_row_1 : decodes [
    ([0x10, 0x34], .bpl 0x34),
    ([0x11, 0x34], .oraDpIndY 0x34),
    ([0x12, 0x34], .oraDpInd 0x34),
    ([0x13, 0x34], .oraSrIndY 0x34),
    ([0x14, 0x34], .trbDp 0x34),
    ([0x15, 0x34], .oraDpX 0x34),
    ([0x16, 0x34], .aslDpX 0x34),
    ([0x17, 0x34], .oraDpIndLongY 0x34),
    ([0x18], .clc),
    ([0x19, 0x34, 0x12], .oraAbsY 0x1234),
    ([0x1A], .incA),
    ([0x1B], .tcs),
    ([0x1C, 0x34, 0x12], .trbAbs 0x1234),
    ([0x1D, 0x34, 0x12], .oraAbsX 0x1234),
    ([0x1E, 0x34, 0x12], .aslAbsX 0x1234),
    ([0x1F, 0x34, 0x12, 0x7E], .oraLongX 0x7E1234)] = true := by decide

theorem test_decode_row_2 : decodes [
    ([0x20, 0x34, 0x12], .jsrAbs 0x1234),
    ([0x21, 0x34], .andDpXInd 0x34),
    ([0x22, 0x34, 0x12, 0x7E], .jsl 0x7E1234),
    ([0x23, 0x34], .andSr 0x34),
    ([0x24, 0x34], .bitDp 0x34),
    ([0x25, 0x34], .andDp 0x34),
    ([0x26, 0x34], .rolDp 0x34),
    ([0x27, 0x34], .andDpIndLong 0x34),
    ([0x28], .plp),
    ([0x29, 0x34, 0x12], .andImm 0x1234),
    ([0x2A], .rolA),
    ([0x2B], .pld),
    ([0x2C, 0x34, 0x12], .bitAbs 0x1234),
    ([0x2D, 0x34, 0x12], .andAbs 0x1234),
    ([0x2E, 0x34, 0x12], .rolAbs 0x1234),
    ([0x2F, 0x34, 0x12, 0x7E], .andLong 0x7E1234)] = true := by decide

theorem test_decode_row_3 : decodes [
    ([0x30, 0x34], .bmi 0x34),
    ([0x31, 0x34], .andDpIndY 0x34),
    ([0x32, 0x34], .andDpInd 0x34),
    ([0x33, 0x34], .andSrIndY 0x34),
    ([0x34, 0x34], .bitDpX 0x34),
    ([0x35, 0x34], .andDpX 0x34),
    ([0x36, 0x34], .rolDpX 0x34),
    ([0x37, 0x34], .andDpIndLongY 0x34),
    ([0x38], .sec),
    ([0x39, 0x34, 0x12], .andAbsY 0x1234),
    ([0x3A], .decA),
    ([0x3B], .tsc),
    ([0x3C, 0x34, 0x12], .bitAbsX 0x1234),
    ([0x3D, 0x34, 0x12], .andAbsX 0x1234),
    ([0x3E, 0x34, 0x12], .rolAbsX 0x1234),
    ([0x3F, 0x34, 0x12, 0x7E], .andLongX 0x7E1234)] = true := by decide

theorem test_decode_row_4 : decodes [
    ([0x40], .rti),
    ([0x41, 0x34], .eorDpXInd 0x34),
    ([0x42, 0x34], .wdm 0x34),
    ([0x43, 0x34], .eorSr 0x34),
    ([0x44, 0x34, 0x12], .mvp 0x34 0x12),
    ([0x45, 0x34], .eorDp 0x34),
    ([0x46, 0x34], .lsrDp 0x34),
    ([0x47, 0x34], .eorDpIndLong 0x34),
    ([0x48], .pha),
    ([0x49, 0x34, 0x12], .eorImm 0x1234),
    ([0x4A], .lsrA),
    ([0x4B], .phk),
    ([0x4C, 0x34, 0x12], .jmpAbs 0x1234),
    ([0x4D, 0x34, 0x12], .eorAbs 0x1234),
    ([0x4E, 0x34, 0x12], .lsrAbs 0x1234),
    ([0x4F, 0x34, 0x12, 0x7E], .eorLong 0x7E1234)] = true := by decide

theorem test_decode_row_5 : decodes [
    ([0x50, 0x34], .bvc 0x34),
    ([0x51, 0x34], .eorDpIndY 0x34),
    ([0x52, 0x34], .eorDpInd 0x34),
    ([0x53, 0x34], .eorSrIndY 0x34),
    ([0x54, 0x34, 0x12], .mvn 0x34 0x12),
    ([0x55, 0x34], .eorDpX 0x34),
    ([0x56, 0x34], .lsrDpX 0x34),
    ([0x57, 0x34], .eorDpIndLongY 0x34),
    ([0x58], .cli),
    ([0x59, 0x34, 0x12], .eorAbsY 0x1234),
    ([0x5A], .phy),
    ([0x5B], .tcd),
    ([0x5C, 0x34, 0x12, 0x7E], .jmpLong 0x7E1234),
    ([0x5D, 0x34, 0x12], .eorAbsX 0x1234),
    ([0x5E, 0x34, 0x12], .lsrAbsX 0x1234),
    ([0x5F, 0x34, 0x12, 0x7E], .eorLongX 0x7E1234)] = true := by decide

theorem test_decode_row_6 : decodes [
    ([0x60], .rts),
    ([0x61, 0x34], .adcDpXInd 0x34),
    ([0x62, 0x34, 0x12], .per 0x1234),
    ([0x63, 0x34], .adcSr 0x34),
    ([0x64, 0x34], .stzDp 0x34),
    ([0x65, 0x34], .adcDp 0x34),
    ([0x66, 0x34], .rorDp 0x34),
    ([0x67, 0x34], .adcDpIndLong 0x34),
    ([0x68], .pla),
    ([0x69, 0x34, 0x12], .adcImm 0x1234),
    ([0x6A], .rorA),
    ([0x6B], .rtl),
    ([0x6C, 0x34, 0x12], .jmpAbsInd 0x1234),
    ([0x6D, 0x34, 0x12], .adcAbs 0x1234),
    ([0x6E, 0x34, 0x12], .rorAbs 0x1234),
    ([0x6F, 0x34, 0x12, 0x7E], .adcLong 0x7E1234)] = true := by decide

theorem test_decode_row_7 : decodes [
    ([0x70, 0x34], .bvs 0x34),
    ([0x71, 0x34], .adcDpIndY 0x34),
    ([0x72, 0x34], .adcDpInd 0x34),
    ([0x73, 0x34], .adcSrIndY 0x34),
    ([0x74, 0x34], .stzDpX 0x34),
    ([0x75, 0x34], .adcDpX 0x34),
    ([0x76, 0x34], .rorDpX 0x34),
    ([0x77, 0x34], .adcDpIndLongY 0x34),
    ([0x78], .sei),
    ([0x79, 0x34, 0x12], .adcAbsY 0x1234),
    ([0x7A], .ply),
    ([0x7B], .tdc),
    ([0x7C, 0x34, 0x12], .jmpAbsXInd 0x1234),
    ([0x7D, 0x34, 0x12], .adcAbsX 0x1234),
    ([0x7E, 0x34, 0x12], .rorAbsX 0x1234),
    ([0x7F, 0x34, 0x12, 0x7E], .adcLongX 0x7E1234)] = true := by decide

theorem test_decode_row_8 : decodes [
    ([0x80, 0x34], .bra 0x34),
    ([0x81, 0x34], .staDpXInd 0x34),
    ([0x82, 0x34, 0x12], .brl 0x1234),
    ([0x83, 0x34], .staSr 0x34),
    ([0x84, 0x34], .styDp 0x34),
    ([0x85, 0x34], .staDp 0x34),
    ([0x86, 0x34], .stxDp 0x34),
    ([0x87, 0x34], .staDpIndLong 0x34),
    ([0x88], .dey),
    ([0x89, 0x34, 0x12], .bitImm 0x1234),
    ([0x8A], .txa),
    ([0x8B], .phb),
    ([0x8C, 0x34, 0x12], .styAbs 0x1234),
    ([0x8D, 0x34, 0x12], .staAbs 0x1234),
    ([0x8E, 0x34, 0x12], .stxAbs 0x1234),
    ([0x8F, 0x34, 0x12, 0x7E], .staLong 0x7E1234)] = true := by decide

theorem test_decode_row_9 : decodes [
    ([0x90, 0x34], .bcc 0x34),
    ([0x91, 0x34], .staDpIndY 0x34),
    ([0x92, 0x34], .staDpInd 0x34),
    ([0x93, 0x34], .staSrIndY 0x34),
    ([0x94, 0x34], .styDpX 0x34),
    ([0x95, 0x34], .staDpX 0x34),
    ([0x96, 0x34], .stxDpY 0x34),
    ([0x97, 0x34], .staDpIndLongY 0x34),
    ([0x98], .tya),
    ([0x99, 0x34, 0x12], .staAbsY 0x1234),
    ([0x9A], .txs),
    ([0x9B], .txy),
    ([0x9C, 0x34, 0x12], .stzAbs 0x1234),
    ([0x9D, 0x34, 0x12], .staAbsX 0x1234),
    ([0x9E, 0x34, 0x12], .stzAbsX 0x1234),
    ([0x9F, 0x34, 0x12, 0x7E], .staLongX 0x7E1234)] = true := by decide

theorem test_decode_row_A : decodes [
    ([0xA0, 0x34, 0x12], .ldyImm 0x1234),
    ([0xA1, 0x34], .ldaDpXInd 0x34),
    ([0xA2, 0x34, 0x12], .ldxImm 0x1234),
    ([0xA3, 0x34], .ldaSr 0x34),
    ([0xA4, 0x34], .ldyDp 0x34),
    ([0xA5, 0x34], .ldaDp 0x34),
    ([0xA6, 0x34], .ldxDp 0x34),
    ([0xA7, 0x34], .ldaDpIndLong 0x34),
    ([0xA8], .tay),
    ([0xA9, 0x34, 0x12], .ldaImm 0x1234),
    ([0xAA], .tax),
    ([0xAB], .plb),
    ([0xAC, 0x34, 0x12], .ldyAbs 0x1234),
    ([0xAD, 0x34, 0x12], .ldaAbs 0x1234),
    ([0xAE, 0x34, 0x12], .ldxAbs 0x1234),
    ([0xAF, 0x34, 0x12, 0x7E], .ldaLong 0x7E1234)] = true := by decide

theorem test_decode_row_B : decodes [
    ([0xB0, 0x34], .bcs 0x34),
    ([0xB1, 0x34], .ldaDpIndY 0x34),
    ([0xB2, 0x34], .ldaDpInd 0x34),
    ([0xB3, 0x34], .ldaSrIndY 0x34),
    ([0xB4, 0x34], .ldyDpX 0x34),
    ([0xB5, 0x34], .ldaDpX 0x34),
    ([0xB6, 0x34], .ldxDpIdx 0x34),
    ([0xB7, 0x34], .ldaDpIndLongY 0x34),
    ([0xB8], .clv),
    ([0xB9, 0x34, 0x12], .ldaAbsY 0x1234),
    ([0xBA], .tsx),
    ([0xBB], .tyx),
    ([0xBC, 0x34, 0x12], .ldyAbsX 0x1234),
    ([0xBD, 0x34, 0x12], .ldaAbsX 0x1234),
    ([0xBE, 0x34, 0x12], .ldxAbsIdx 0x1234),
    ([0xBF, 0x34, 0x12, 0x7E], .ldaLongX 0x7E1234)] = true := by decide

theorem test_decode_row_C : decodes [
    ([0xC0, 0x34, 0x12], .cpyImm 0x1234),
    ([0xC1, 0x34], .cmpDpXInd 0x34),
    ([0xC2, 0x34], .rep 0x34),
    ([0xC3, 0x34], .cmpSr 0x34),
    ([0xC4, 0x34], .cpyDp 0x34),
    ([0xC5, 0x34], .cmpDp 0x34),
    ([0xC6, 0x34], .decDp 0x34),
    ([0xC7, 0x34], .cmpDpIndLong 0x34),
    ([0xC8], .iny),
    ([0xC9, 0x34, 0x12], .cmpImm 0x1234),
    ([0xCA], .dex),
    ([0xCB], .wai),
    ([0xCC, 0x34, 0x12], .cpyAbs 0x1234),
    ([0xCD, 0x34, 0x12], .cmpAbs 0x1234),
    ([0xCE, 0x34, 0x12], .decAbs 0x1234),
    ([0xCF, 0x34, 0x12, 0x7E], .cmpLong 0x7E1234)] = true := by decide

theorem test_decode_row_D : decodes [
    ([0xD0, 0x34], .bne 0x34),
    ([0xD1, 0x34], .cmpDpIndY 0x34),
    ([0xD2, 0x34], .cmpDpInd 0x34),
    ([0xD3, 0x34], .cmpSrIndY 0x34),
    ([0xD4, 0x34], .pei 0x34),
    ([0xD5, 0x34], .cmpDpX 0x34),
    ([0xD6, 0x34], .decDpX 0x34),
    ([0xD7, 0x34], .cmpDpIndLongY 0x34),
    ([0xD8], .cld),
    ([0xD9, 0x34, 0x12], .cmpAbsY 0x1234),
    ([0xDA], .phx),
    ([0xDB], .stp),
    ([0xDC, 0x34, 0x12], .jmpAbsIndLong 0x1234),
    ([0xDD, 0x34, 0x12], .cmpAbsX 0x1234),
    ([0xDE, 0x34, 0x12], .decAbsX 0x1234),
    ([0xDF, 0x34, 0x12, 0x7E], .cmpLongX 0x7E1234)] = true := by decide

theorem test_decode_row_E : decodes [
    ([0xE0, 0x34, 0x12], .cpxImm 0x1234),
    ([0xE1, 0x34], .sbcDpXInd 0x34),
    ([0xE2, 0x34], .sep 0x34),
    ([0xE3, 0x34], .sbcSr 0x34),
    ([0xE4, 0x34], .cpxDp 0x34),
    ([0xE5, 0x34], .sbcDp 0x34),
    ([0xE6, 0x34], .incDp 0x34),
    ([0xE7, 0x34], .sbcDpIndLong 0x34),
    ([0xE8], .inx),
    ([0xE9, 0x34, 0x12], .sbcImm 0x1234),
    ([0xEA], .nop),
    ([0xEB], .xba),
    ([0xEC, 0x34, 0x12], .cpxAbs 0x1234),
    ([0xED, 0x34, 0x12], .sbcAbs 0x1234),
    ([0xEE, 0x34, 0x12], .incAbs 0x1234),
    ([0xEF, 0x34, 0x12, 0x7E], .sbcLong 0x7E1234)] = true := by decide

theorem test_decode_row_F : decodes [
    ([0xF0, 0x34], .beq 0x34),
    ([0xF1, 0x34], .sbcDpIndY 0x34),
    ([0xF2, 0x34], .sbcDpInd 0x34),
    ([0xF3, 0x34], .sbcSrIndY 0x34),
    ([0xF4, 0x34, 0x12], .pea 0x1234),
    ([0xF5, 0x34], .sbcDpX 0x34),
    ([0xF6, 0x34], .incDpX 0x34),
    ([0xF7, 0x34], .sbcDpIndLongY 0x34),
    ([0xF8], .sed),
    ([0xF9, 0x34, 0x12], .sbcAbsY 0x1234),
    ([0xFA], .plx),
    ([0xFB], .xce),
    ([0xFC, 0x34, 0x12], .jsrAbsXInd 0x1234),
    ([0xFD, 0x34, 0x12], .sbcAbsX 0x1234),
    ([0xFE, 0x34, 0x12], .incAbsX 0x1234),
    ([0xFF, 0x34, 0x12, 0x7E], .sbcLongX 0x7E1234)] = true := by decide

/-! ## The decoder refuses by name -/

theorem test_decode_illegal : decode .v6502 .w8 .w8 [0x02, 0x00] = .error (.illegalOpcode 0x02) := by decide
theorem test_decode_truncated : decode .v65816 .w16 .w8 [0xA9, 0x34] = .error (.truncated 0xA9) := by decide
theorem test_decode_empty : decode .v65816 .w8 .w8 [] = .error .empty := by decide

/-! ## One step of each instruction (spec/95_test_vectors.md, part 2) -/

theorem test_adcImm_T1 :
    after ({ start .v6502 true 0x31 0x00 0x2000 [0x69, 0x00] with c := 0x007F }) (fun t => (t.c, t.p)) =
      some (0x0080, 0xF0) := by decide
theorem test_adcImm_T8 :
    after ({ start .v65816 false 0x30 0x00 0x2000 [0x69, 0x01] with c := 0x12FF }) (fun t => (t.c, t.p)) =
      some (0x1200, 0x33) := by decide
theorem test_sbcImm_T12 :
    after (start .v6502 true 0x31 0x00 0x2000 [0xE9, 0x01]) (fun t => (t.c, t.p)) =
      some (0x00FF, 0xB0) := by decide
theorem test_sbcImm_T17 :
    after (start .v65C02 true 0x39 0x00 0x2000 [0xE9, 0x01]) (fun t => t.c) =
      some 0x0099 := by decide
theorem test_dex_T19 :
    after (start .v6502 true 0x30 0x00 0x2000 [0xCA]) (fun t => (t.x, t.p)) =
      some (0x00FF, 0xB0) := by decide
theorem test_dey_T20 :
    after ({ start .v6502 true 0x30 0x00 0x2000 [0x88] with y := 0x0001 }) (fun t => (t.y, t.p)) =
      some (0x0000, 0x32) := by decide
theorem test_inx_T22 :
    after ({ start .v65816 false 0x20 0x00 0x2000 [0xE8] with x := 0x00FF }) (fun t => t.x) =
      some 0x0100 := by decide
theorem test_iny_T23 :
    after ({ start .v65816 false 0x20 0x00 0x2000 [0xC8] with y := 0xFFFF }) (fun t => (t.y, t.p)) =
      some (0x0000, 0x22) := by decide
theorem test_decDp_T25 :
    after (start .v6502 true 0x30 0x00 0x2000 [0xC6, 0x70]) (fun t => (t.p, t.cell 0x000070)) =
      some (0xB0, 0xFF) := by decide
theorem test_incA_T26 :
    after ({ start .v65C02 true 0x30 0x00 0x2000 [0x1A] with c := 0x007F }) (fun t => (t.c, t.p)) =
      some (0x0080, 0xB0) := by decide
theorem test_incDp_T28 :
    after (poke [(0x000070, 0xFF)]
      (start .v65816 false 0x10 0x00 0x2000 [0xE6, 0x70])) (fun t => t.cell 0x000070) =
      some 0x00 := by decide
theorem test_decA_T29 :
    after ({ start .v65816 false 0x10 0x00 0x2000 [0x3A] with c := 0x1234 }) (fun t => t.c) =
      some 0x1233 := by decide
theorem test_eorImm_T41 :
    after ({ start .v6502 true 0x30 0x00 0x2000 [0x49, 0xAA] with c := 0x00CC }) (fun t => t.c) =
      some 0x0066 := by decide
theorem test_oraImm_T42 :
    after ({ start .v6502 true 0x30 0x00 0x2000 [0x09, 0xAA] with c := 0x00CC }) (fun t => (t.c, t.p)) =
      some (0x00EE, 0xB0) := by decide
theorem test_andImm_T44 :
    after ({ start .v65816 false 0x10 0x00 0x2000 [0x29, 0xF0, 0xF0] with c := 0xFF0F }) (fun t => (t.c, t.p)) =
      some (0xF000, 0x90) := by decide
theorem test_bitDp_T45 :
    after (poke [(0x000070, 0xC0)]
      ({ start .v6502 true 0x30 0x00 0x2000 [0x24, 0x70] with c := 0x0001 })) (fun t => t.p) =
      some 0xF2 := by decide
theorem test_bitImm_T46 :
    after ({ start .v65C02 true 0x30 0x00 0x2000 [0x89, 0xC0] with c := 0x0001 }) (fun t => t.p) =
      some 0x32 := by decide
theorem test_aslA_T48 :
    after ({ start .v6502 true 0x30 0x00 0x2000 [0x0A] with c := 0x0081 }) (fun t => (t.c, t.p)) =
      some (0x0002, 0x31) := by decide
theorem test_lsrA_T49 :
    after ({ start .v6502 true 0x31 0x00 0x2000 [0x4A] with c := 0x0001 }) (fun t => (t.c, t.p)) =
      some (0x0000, 0x33) := by decide
theorem test_rolA_T50 :
    after ({ start .v6502 true 0x31 0x00 0x2000 [0x2A] with c := 0x0080 }) (fun t => t.c) =
      some 0x0001 := by decide
theorem test_rorA_T51 :
    after ({ start .v6502 true 0x31 0x00 0x2000 [0x6A] with c := 0x0001 }) (fun t => (t.c, t.p)) =
      some (0x0080, 0xB1) := by decide
theorem test_aslDp_T53 :
    after (poke [(0x000070, 0x40)]
      (start .v6502 true 0x30 0x00 0x2000 [0x06, 0x70])) (fun t => (t.p, t.cell 0x000070)) =
      some (0xB0, 0x80) := by decide
theorem test_trbDp_T56 :
    after (poke [(0x000070, 0x3C)]
      ({ start .v65C02 true 0x30 0x00 0x2000 [0x14, 0x70] with c := 0x000F })) (fun t => t.cell 0x000070) =
      some 0x30 := by decide
theorem test_tsbDp_T57 :
    after (poke [(0x000070, 0x30)]
      ({ start .v65C02 true 0x30 0x00 0x2000 [0x04, 0x70] with c := 0x000F })) (fun t => (t.p, t.cell 0x000070)) =
      some (0x32, 0x3F) := by decide
theorem test_clc_T70 :
    after (start .v6502 true 0x3D 0x00 0x2000 [0x18]) (fun t => t.p) =
      some 0x3C := by decide
theorem test_cld_T71 :
    after (start .v6502 true 0x38 0x00 0x2000 [0xD8]) (fun t => t.p) =
      some 0x30 := by decide
theorem test_cli_T72 :
    after (start .v6502 true 0x34 0x00 0x2000 [0x58]) (fun t => t.p) =
      some 0x30 := by decide
theorem test_clv_T73 :
    after (start .v6502 true 0x70 0x00 0x2000 [0xB8]) (fun t => t.p) =
      some 0x30 := by decide
theorem test_sec_T74 :
    after (start .v6502 true 0x30 0x00 0x2000 [0x38]) (fun t => t.p) =
      some 0x31 := by decide
theorem test_sed_T75 :
    after (start .v6502 true 0x30 0x00 0x2000 [0xF8]) (fun t => t.p) =
      some 0x38 := by decide
theorem test_sei_T76 :
    after (start .v6502 true 0x30 0x00 0x2000 [0x78]) (fun t => t.p) =
      some 0x34 := by decide
theorem test_rep_T77 :
    after (start .v65816 false 0x30 0x00 0x2000 [0xC2, 0x30]) (fun t => t.p) =
      some 0x00 := by decide
theorem test_sep_T78 :
    after ({ start .v65816 false 0x00 0x00 0x2000 [0xE2, 0x10] with x := 0x1234, y := 0x5678 }) (fun t => (t.x, t.y, t.p)) =
      some (0x0034, 0x0078, 0x10) := by decide
theorem test_cmpImm_T84 :
    after ({ start .v6502 true 0x30 0x00 0x2000 [0xC9, 0x01] with c := 0x0080 }) (fun t => t.p) =
      some 0x31 := by decide
theorem test_cpxImm_T85 :
    after (start .v6502 true 0x30 0x00 0x2000 [0xE0, 0xFF]) (fun t => t.pc) =
      some 0x2002 := by decide
theorem test_cpyImm_T86 :
    after ({ start .v65816 false 0x20 0x00 0x2000 [0xC0, 0x00, 0x10] with y := 0x1000 }) (fun t => t.p) =
      some 0x23 := by decide
theorem test_bne_T88 :
    after (start .v6502 true 0x32 0x00 0x2000 [0xD0, 0xFE]) (fun t => t.pc) =
      some 0x2002 := by decide
theorem test_bcc_T89 :
    after (start .v6502 true 0x30 0x00 0x2000 [0x90, 0x7F]) (fun t => t.pc) =
      some 0x2081 := by decide
theorem test_bcs_T90 :
    after (start .v6502 true 0x31 0x00 0x2000 [0xB0, 0x80]) (fun t => t.pc) =
      some 0x1F82 := by decide
theorem test_beq_T91 :
    after (start .v6502 true 0x32 0x00 0xFFF8 [0xF0, 0x10]) (fun t => t.pc) =
      some 0x000A := by decide
theorem test_bmi_T92 :
    after (start .v6502 true 0xB0 0x00 0x2000 [0x30, 0x02]) (fun t => t.pc) =
      some 0x2004 := by decide
theorem test_bpl_T93 :
    after (start .v6502 true 0xB0 0x00 0x2000 [0x10, 0x02]) (fun t => t.pc) =
      some 0x2002 := by decide
theorem test_bvc_T94 :
    after (start .v6502 true 0x30 0x00 0x2000 [0x50, 0x02]) (fun t => t.pc) =
      some 0x2004 := by decide
theorem test_bvs_T95 :
    after (start .v6502 true 0x30 0x00 0x2000 [0x70, 0x02]) (fun t => t.pc) =
      some 0x2002 := by decide
theorem test_bra_T96 :
    after (start .v65C02 true 0x30 0x00 0x2000 [0x80, 0xFC]) (fun t => t.pc) =
      some 0x1FFE := by decide
theorem test_brl_T97 :
    after (start .v65816 false 0x30 0x01 0x2000 [0x82, 0xFD, 0xFF]) (fun t => t.pc) =
      some 0x2000 := by decide
theorem test_jmpAbs_T99 :
    after (start .v6502 true 0x30 0x00 0x2000 [0x4C, 0x34, 0x12]) (fun t => t.pc) =
      some 0x1234 := by decide
theorem test_jmpLong_T100 :
    after (start .v65816 false 0x30 0x01 0x2000 [0x5C, 0x34, 0x12, 0x7E]) (fun t => (t.pc, t.pbr)) =
      some (0x1234, 0x7E) := by decide
theorem test_jmpAbsInd_T101 :
    after (poke [(0x000200, 0x12), (0x0002FF, 0x34), (0x000300, 0x56)]
      (start .v6502 true 0x30 0x00 0x2000 [0x6C, 0xFF, 0x02])) (fun t => t.pc) =
      some 0x1234 := by decide
theorem test_jmpAbsInd_T102 :
    after (poke [(0x000200, 0x12), (0x0002FF, 0x34), (0x000300, 0x56)]
      (start .v65C02 true 0x30 0x00 0x2000 [0x6C, 0xFF, 0x02])) (fun t => t.pc) =
      some 0x5634 := by decide
theorem test_jmpAbsXInd_T103 :
    after (poke [(0x003002, 0x78), (0x003003, 0x56)]
      ({ start .v65C02 true 0x30 0x00 0x2000 [0x7C, 0x00, 0x30] with x := 0x0002 })) (fun t => t.pc) =
      some 0x5678 := by decide
theorem test_jmpAbsIndLong_T104 :
    after (poke [(0x003001, 0x80), (0x003002, 0x7F)]
      (start .v65816 false 0x30 0x00 0x2000 [0xDC, 0x00, 0x30])) (fun t => (t.pc, t.pbr)) =
      some (0x8000, 0x7F) := by decide
theorem test_jsrAbs_T105 :
    after (start .v6502 true 0x30 0x00 0x2000 [0x20, 0x00, 0x30]) (fun t => (t.pc, t.sp, t.cell 0x0001FF)) =
      some (0x3000, 0x01FD, 0x20) := by decide
theorem test_jsrAbsXInd_T106 :
    after (poke [(0x013003, 0x40)]
      ({ start .v65816 false 0x30 0x01 0x2000 [0xFC, 0x00, 0x30] with x := 0x0002 })) (fun t => (t.pc, t.sp, t.cell 0x0001FF)) =
      some (0x4000, 0x01FD, 0x20) := by decide
theorem test_jsl_T107 :
    after (start .v65816 false 0x30 0x01 0x2000 [0x22, 0x00, 0x30, 0x02]) (fun t => (t.pc, t.sp, t.pbr)) =
      some (0x3000, 0x01FC, 0x02) := by decide
theorem test_rts_T108 :
    after (poke [(0x0001FE, 0x02), (0x0001FF, 0x20)]
      ({ start .v6502 true 0x30 0x00 0x2000 [0x60] with sp := 0x01FD })) (fun t => (t.pc, t.sp)) =
      some (0x2003, 0x01FF) := by decide
theorem test_rtl_T109 :
    after (poke [(0x0001FD, 0x03), (0x0001FE, 0x20), (0x0001FF, 0x01)]
      ({ start .v65816 false 0x30 0x02 0x2000 [0x6B] with sp := 0x01FC })) (fun t => (t.pc, t.sp, t.pbr)) =
      some (0x2004, 0x01FF, 0x01) := by decide
theorem test_ldaImm_T123 :
    after (start .v65816 false 0x10 0x00 0x2000 [0xA9, 0x34, 0x12]) (fun t => t.c) =
      some 0x1234 := by decide
theorem test_ldaAbs_T124 :
    after (poke [(0x7EFFFF, 0x34), (0x7F0000, 0x12)]
      ({ start .v65816 false 0x10 0x00 0x2000 [0xAD, 0xFF, 0xFF] with dbr := 0x7E })) (fun t => t.c) =
      some 0x1234 := by decide
theorem test_ldaDp_T126 :
    after (poke [(0x000000, 0x12), (0x00FFFF, 0x34)]
      ({ start .v65816 false 0x10 0x00 0x2000 [0xA5, 0xFF] with d := 0xFF00 })) (fun t => t.c) =
      some 0x1234 := by decide
theorem test_ldaDpX_T127 :
    after (poke [(0x000010, 0xAA), (0x000110, 0xBB)]
      ({ start .v6502 true 0x30 0x00 0x2000 [0xB5, 0xF0] with x := 0x0020 })) (fun t => (t.c, t.p)) =
      some (0x00AA, 0xB0) := by decide
theorem test_ldaDpXInd_T129 :
    after (poke [(0x000024, 0x74), (0x000025, 0x20), (0x002074, 0x5A)]
      ({ start .v6502 true 0x30 0x00 0x2000 [0xA1, 0x20] with x := 0x0004 })) (fun t => t.c) =
      some 0x005A := by decide
theorem test_ldaDpIndY_T131 :
    after (poke [(0x000086, 0x28), (0x000087, 0x40), (0x004038, 0x5A)]
      ({ start .v6502 true 0x30 0x00 0x2000 [0xB1, 0x86] with y := 0x0010 })) (fun t => t.c) =
      some 0x005A := by decide
theorem test_ldxDpIdx_T132 :
    after (poke [(0x000072, 0x99)]
      ({ start .v6502 true 0x30 0x00 0x2000 [0xB6, 0x70] with y := 0x0002 })) (fun t => (t.x, t.p)) =
      some (0x0099, 0xB0) := by decide
theorem test_ldxAbsIdx_T134 :
    after (poke [(0x003001, 0x7F)]
      ({ start .v6502 true 0x30 0x00 0x2000 [0xBE, 0x00, 0x30] with y := 0x0001 })) (fun t => t.x) =
      some 0x007F := by decide
theorem test_ldyImm_T135 :
    after (start .v65816 false 0x20 0x00 0x2000 [0xA0, 0x34, 0x12]) (fun t => t.y) =
      some 0x1234 := by decide
theorem test_ldxImm_T136 :
    after (start .v65816 false 0x10 0x00 0x2000 [0xA2, 0x34]) (fun t => t.x) =
      some 0x0034 := by decide
theorem test_staDp_T137 :
    after ({ start .v6502 true 0x30 0x00 0x2000 [0x85, 0x70] with c := 0x0042 }) (fun t => t.cell 0x000070) =
      some 0x42 := by decide
theorem test_staAbs_T138 :
    after ({ start .v65816 false 0x10 0x00 0x2000 [0x8D, 0x00, 0x20] with c := 0xBEEF, dbr := 0x01 }) (fun t => t.cell 0x012000) =
      some 0xEF := by decide
theorem test_stxDpY_T139 :
    after ({ start .v6502 true 0x30 0x00 0x2000 [0x96, 0x70] with x := 0x0005, y := 0x0001 }) (fun t => t.cell 0x000071) =
      some 0x05 := by decide
theorem test_styAbs_T140 :
    after ({ start .v65816 false 0x20 0x00 0x2000 [0x8C, 0x00, 0x20] with y := 0xBEEF }) (fun t => t.cell 0x002000) =
      some 0xEF := by decide
theorem test_stzDp_T141 :
    after (poke [(0x000070, 0xFF)]
      (start .v65C02 true 0x30 0x00 0x2000 [0x64, 0x70])) (fun t => t.cell 0x000070) =
      some 0x00 := by decide
theorem test_tax_T144 :
    after ({ start .v65816 false 0x10 0x00 0x2000 [0xAA] with c := 0x12FF }) (fun t => (t.x, t.p)) =
      some (0x00FF, 0x90) := by decide
theorem test_txa_T145 :
    after ({ start .v65816 false 0x10 0x00 0x2000 [0x8A] with c := 0x5500, x := 0x0080 }) (fun t => t.c) =
      some 0x0080 := by decide
theorem test_tay_T147 :
    after (start .v6502 true 0x30 0x00 0x2000 [0xA8]) (fun t => t.p) =
      some 0x32 := by decide
theorem test_tya_T148 :
    after ({ start .v6502 true 0x30 0x00 0x2000 [0x98] with y := 0x007F }) (fun t => t.c) =
      some 0x007F := by decide
theorem test_tsx_T149 :
    after ({ start .v6502 true 0x30 0x00 0x2000 [0xBA] with sp := 0x01FD }) (fun t => (t.x, t.p)) =
      some (0x00FD, 0xB0) := by decide
theorem test_txs_T152 :
    after ({ start .v65816 false 0x20 0x00 0x2000 [0x9A] with x := 0x1FFF }) (fun t => t.sp) =
      some 0x1FFF := by decide
theorem test_tcs_T155 :
    after ({ start .v65816 true 0x30 0x00 0x2000 [0x1B] with c := 0x1FFF }) (fun t => t.pc) =
      some 0x2001 := by decide
theorem test_tcd_T156 :
    after ({ start .v65816 false 0x30 0x00 0x2000 [0x5B] with c := 0x2000 }) (fun t => t.d) =
      some 0x2000 := by decide
theorem test_tdc_T157 :
    after ({ start .v65816 false 0x30 0x00 0x2000 [0x7B] with c := 0x0012, d := 0x8000 }) (fun t => (t.c, t.p)) =
      some (0x8000, 0xB0) := by decide
theorem test_tsc_T158 :
    after (start .v65816 true 0x30 0x00 0x2000 [0x3B]) (fun t => t.c) =
      some 0x01FF := by decide
theorem test_txy_T159 :
    after ({ start .v65816 false 0x20 0x00 0x2000 [0x9B] with y := 0x1234 }) (fun t => (t.y, t.p)) =
      some (0x0000, 0x22) := by decide
theorem test_tyx_T160 :
    after ({ start .v65816 false 0x20 0x00 0x2000 [0xBB] with y := 0x8001 }) (fun t => (t.x, t.p)) =
      some (0x8001, 0xA0) := by decide
theorem test_xba_T161 :
    after ({ start .v65816 false 0x30 0x00 0x2000 [0xEB] with c := 0x8001 }) (fun t => (t.c, t.p)) =
      some (0x0180, 0xB0) := by decide
theorem test_pla_T182 :
    after (poke [(0x000100, 0x80)]
      (start .v6502 true 0x30 0x00 0x2000 [0x68])) (fun t => (t.c, t.sp, t.p)) =
      some (0x0080, 0x0100, 0xB0) := by decide
theorem test_pha_T183 :
    after ({ start .v65816 false 0x10 0x00 0x2000 [0x48] with c := 0x1234 }) (fun t => (t.sp, t.cell 0x0001FF)) =
      some (0x01FD, 0x12) := by decide
theorem test_php_T187 :
    after (start .v65816 false 0x81 0x00 0x2000 [0x08]) (fun t => (t.sp, t.cell 0x0001FF)) =
      some (0x01FE, 0x81) := by decide
theorem test_plp_T190 :
    after (poke [(0x0001FF, 0x30)]
      ({ start .v65816 false 0x00 0x00 0x2000 [0x28] with x := 0x1234, y := 0x5678, sp := 0x01FE })) (fun t => (t.x, t.y, t.sp)) =
      some (0x0034, 0x0078, 0x01FF) := by decide
theorem test_phx_T191 :
    after ({ start .v65C02 true 0x30 0x00 0x2000 [0xDA] with x := 0x0005 }) (fun t => (t.sp, t.cell 0x0001FF)) =
      some (0x01FE, 0x05) := by decide
theorem test_phy_T193 :
    after ({ start .v65816 false 0x20 0x00 0x2000 [0x5A] with y := 0xBEEF }) (fun t => (t.sp, t.cell 0x0001FF)) =
      some (0x01FD, 0xBE) := by decide
theorem test_plx_T194 :
    after ({ start .v65C02 true 0x30 0x00 0x2000 [0xFA] with sp := 0x01FE }) (fun t => (t.sp, t.p)) =
      some (0x01FF, 0x32) := by decide
theorem test_ply_T195 :
    after (poke [(0x0001FE, 0x34), (0x0001FF, 0x12)]
      ({ start .v65816 false 0x20 0x00 0x2000 [0x7A] with sp := 0x01FD })) (fun t => (t.y, t.sp)) =
      some (0x1234, 0x01FF) := by decide
theorem test_phb_T196 :
    after ({ start .v65816 false 0x30 0x00 0x2000 [0x8B] with dbr := 0x7E }) (fun t => (t.sp, t.cell 0x0001FF)) =
      some (0x01FE, 0x7E) := by decide
theorem test_plb_T197 :
    after (poke [(0x0001FF, 0x82)]
      ({ start .v65816 false 0x30 0x00 0x2000 [0xAB] with sp := 0x01FE })) (fun t => (t.sp, t.dbr, t.p)) =
      some (0x01FF, 0x82, 0xB0) := by decide
theorem test_phd_T198 :
    after ({ start .v65816 false 0x30 0x00 0x2000 [0x0B] with d := 0x2000 }) (fun t => (t.sp, t.cell 0x0001FF)) =
      some (0x01FD, 0x20) := by decide
theorem test_pld_T199 :
    after (poke [(0x0001FF, 0x20)]
      ({ start .v65816 false 0x30 0x00 0x2000 [0x2B] with sp := 0x01FD })) (fun t => (t.sp, t.d)) =
      some (0x01FF, 0x2000) := by decide
theorem test_phk_T200 :
    after (start .v65816 false 0x30 0x01 0x2000 [0x4B]) (fun t => (t.sp, t.cell 0x0001FF)) =
      some (0x01FE, 0x01) := by decide
theorem test_pea_T201 :
    after (start .v65816 false 0x30 0x00 0x2000 [0xF4, 0x34, 0x12]) (fun t => (t.sp, t.cell 0x0001FF)) =
      some (0x01FD, 0x12) := by decide
theorem test_pei_T202 :
    after (poke [(0x000071, 0x30)]
      (start .v65816 false 0x30 0x00 0x2000 [0xD4, 0x70])) (fun t => (t.sp, t.cell 0x0001FF)) =
      some (0x01FD, 0x30) := by decide
theorem test_per_T203 :
    after (start .v65816 false 0x30 0x00 0x2000 [0x62, 0x10, 0x00]) (fun t => (t.sp, t.cell 0x0001FF)) =
      some (0x01FD, 0x20) := by decide
theorem test_ldaSr_T206 :
    after (poke [(0x0001F3, 0x77)]
      ({ start .v65816 false 0x30 0x00 0x2000 [0xA3, 0x03] with sp := 0x01F0 })) (fun t => t.c) =
      some 0x0077 := by decide
theorem test_ldaSrIndY_T207 :
    after (poke [(0x0001F2, 0x30), (0x023002, 0x66)]
      ({ start .v65816 false 0x30 0x00 0x2000 [0xB3, 0x01] with y := 0x0002, sp := 0x01F0, dbr := 0x02 })) (fun t => t.c) =
      some 0x0066 := by decide
theorem test_brk_T220 :
    after (poke [(0x00FFFF, 0x80)]
      (start .v6502 true 0x39 0x00 0x2000 [0x00, 0x00])) (fun t => (t.pc, t.sp, t.p)) =
      some (0x8000, 0x01FC, 0x3D) := by decide
theorem test_brk_T223 :
    after (poke [(0x00FFE7, 0xA0)]
      (start .v65816 false 0x08 0x01 0x2000 [0x00, 0x00])) (fun t => (t.pc, t.sp, t.pbr)) =
      some (0xA000, 0x01FB, 0x00) := by decide
theorem test_cop_T224 :
    after (poke [(0x00FFE5, 0xB0)]
      (start .v65816 false 0x08 0x01 0x2000 [0x02, 0x05])) (fun t => (t.pc, t.sp, t.pbr)) =
      some (0xB000, 0x01FB, 0x00) := by decide
theorem test_rti_T228 :
    after (poke [(0x0001FD, 0x39), (0x0001FE, 0x02), (0x0001FF, 0x20)]
      ({ start .v6502 true 0x30 0x00 0x2000 [0x40] with sp := 0x01FC })) (fun t => (t.pc, t.sp, t.p)) =
      some (0x2002, 0x01FF, 0x39) := by decide
theorem test_wai_T231 :
    after (start .v65816 false 0x34 0x00 0x2000 [0xCB]) (fun t => t.run) =
      some .waiting := by decide
theorem test_nop_T240 :
    after (start .v6502 true 0x30 0x00 0x2000 [0xEA]) (fun t => t.pc) =
      some 0x2001 := by decide
theorem test_wdm_T241 :
    after (start .v65816 false 0x30 0x00 0x2000 [0x42, 0xFF]) (fun t => t.pc) =
      some 0x2002 := by decide
theorem test_xce_T244 :
    after ({ start .v65816 false 0x01 0x00 0x2000 [0xFB] with x := 0x1234, y := 0x5678, sp := 0x1FF0 }) (fun t => (t.x, t.y, t.sp)) =
      some (0x0034, 0x0078, 0x01F0) := by decide
theorem test_xce_T245 :
    after (start .v65816 false 0x00 0x00 0x2000 [0xFB]) (fun t => t.pc) =
      some 0x2001 := by decide
theorem test_stp_T247 :
    after (start .v65816 false 0x30 0x00 0x2000 [0xDB]) (fun t => t.run) =
      some .stopped := by decide

/-- Vector B1: one byte of an MVN. -/
theorem test_mvn_B1 :
    after (poke [(0x011000, 0xAA)] { start .v65816 false 0x00 0x00 0x2000 [0x54, 0x01, 0x02] with
        c := 0x0001, x := 0x1000, y := 0x2000 }) (fun t => (t.c, t.x, t.cell 0x022000)) =
      some (0x0000, 0x1001, 0xAA) := by decide
/-- Vector B3: one byte of an MVP. -/
theorem test_mvp_B3 :
    after (poke [(0x001001, 0xBB)] { start .v65816 false 0x00 0x00 0x2000 [0x44, 0x00, 0x00] with
        c := 0x0001, x := 0x1001, y := 0x1002 }) (fun t => (t.x, t.y, t.cell 0x001002)) =
      some (0x1000, 0x1001, 0xBB) := by decide
/-- Vector T228, of RTI: the address pulled is the one returned to. -/
theorem test_rti : after (poke [(0x0001FD, 0xC3), (0x0001FE, 0x34), (0x0001FF, 0x12)]
    { start .v6502 true 0x34 0x00 0x2000 [0x40] with sp := 0x01FC }) (fun t => (t.pc, t.p, t.sp)) =
      some (0x1234, 0xF3, 0x01FF) := by decide

/-! ## The instruction boundary (spec/95_test_vectors.md, part 3) -/

/-- Scenario S3: NMI comes before IRQ. -/
theorem test_boundary_S3 :
    after (poke [(0x00FFFB, 0x90)] (given true true false false false (start .v6502 true 0x35 0x00 0x2000 [0xEA])))
      (fun t => (t.pc, t.cell 0x0001FD, t.nmiPending)) = some (0x9000, 0x25, false) := by decide
/-- Scenario S6: IRQ in native mode pushes PBR and P as it is. -/
theorem test_boundary_S6 :
    after (poke [(0x00FFEF, 0xD0)] (given true false false false false (start .v65816 false 0x08 0x02 0x2000 [0xEA])))
      (fun t => (t.pc, t.cell 0x0001FF, t.cell 0x0001FC)) = some (0xD000, 0x02, 0x08) := by decide
/-- Scenario S10: with i set, IRQ wakes a waiting processor and nothing is pushed. -/
theorem test_boundary_S10 :
    after (given true false false false false { start .v65816 false 0x04 0x00 0x2001 [] with run := .waiting })
      (fun t => (t.run, t.pc, t.sp)) = some (.running, 0x2001, 0x01FF) := by decide
/-- Scenario S12: an NMI is latched by a stopped processor, which stays stopped. -/
theorem test_boundary_S12 :
    after (given true true false false false { start .v65816 false 0x00 0x00 0x2001 [] with run := .stopped })
      (fun t => (t.run, t.nmiPending)) = some (.stopped, true) := by decide
/-- Scenario S14: RESET ends any run state. -/
theorem test_boundary_S14 :
    after (poke [(0x00FFFD, 0xC0)] (given false false true false false
      { start .v65816 false 0x00 0x00 0x2001 [] with run := .stopped, x := 0x1234 }))
      (fun t => (t.run, t.pc, t.e)) = some (.running, 0xC000, true) := by decide

/-! ## What a step is refused for -/

/-- Vector B8: MVN is no opcode of V65C02 (R97). -/
theorem test_refused_illegal : refusal (start .v65C02 true 0x30 0x00 0x2000 [0x54, 0x00, 0x00]) = some (.illegalOpcode 0x54) := by
  decide
/-- R68: a device. -/
theorem test_refused_device :
    refusal (onMap [⟨0xFE00, 0x100, .device⟩] (start .v6502 true 0x30 0x00 0x2000 [0xAD, 0x00, 0xFE])) =
      some (.deviceAccessSequence 0xFE00) := by decide
/-- U12: ABORT. -/
theorem test_refused_abort : refusal (given false false false true false (start .v65816 true 0x30 0x00 0x2000 [0xEA])) =
    some .abortAsserted := by decide

/-! ## The hypotheses of the statements can be met -/

/-- V6502, nothing set. -/
def s8 : State := start .v6502 true 0x30 0x00 0x2000 [0xEA]
/-- V65816 in emulation mode, the stack pointer at the bottom of its page. -/
def sE : State := { start .v65816 true 0x31 0x00 0x2000 [0xEA] with sp := 0x0100, c := 0x1234, x := 0x00FF, y := 0x0001 }
/-- V65816 in native mode, both widths 16, the stack pointer at 0. -/
def s16 : State := { start .v65816 false 0x00 0x02 0x2000 [0xEA] with
  sp := 0x0000, c := 0x1234, x := 0x8000, y := 0xFFFF, d := 0xFFFF, dbr := 0xFF }
/-- V65816 in native mode, both widths 8. -/
def s88 : State := { start .v65816 false 0x31 0x00 0x2000 [0xEA] with c := 0x1299, x := 0x00FF, y := 0x0080 }

theorem witness_DecodeOfEncode :
    (Instr.ldaImm 0x00FF).wellFormed .v6502 .w8 .w8 = true ∧ (Instr.cpxImm 0xFFFF).wellFormed .v65816 .w8 .w16 = true ∧
      (Instr.jmpLong 0xFFFFFF).wellFormed .v65816 .w8 .w8 = true := by decide

theorem witness_EncodeOfDecode : decode .v65C02 .w8 .w8 [0x80, 0xFE, 0x01] = .ok (.bra 0xFE) [0x01] := by decide

theorem witness_InstructionLengths :
    (Instr.bitImm 0).opcode ∈ ([0x09, 0x29, 0x49, 0x69, 0x89, 0xA9, 0xC9, 0xE9] : List Byte) ∧
      (Instr.cpxImm 0).opcode ∈ ([0xA0, 0xA2, 0xC0, 0xE0] : List Byte) ∧
      (Instr.rep 0).opcode ∉ ([0x09, 0x29, 0x49, 0x69, 0x89, 0xA9, 0xC9, 0xE9, 0xA0, 0xA2, 0xC0, 0xE0] : List Byte) := by
  decide

/-- The instruction's second byte wraps inside the program bank. -/
theorem witness_StepRunsDecodedInstruction :
    let s := start .v65816 false 0x30 0xFF 0xFFFF [0xA9, 0x12]
    s.quiet = true ∧ (∀ k < 2, Backed s (s.fetchAddr k)) ∧
      decode s.cfg.variant s.wm s.wx ((List.range 2).map fun k => s.cell (s.fetchAddr k)) = .ok (.ldaImm 0x12) [] := by
  decide

theorem witness_IllegalOpcodeIsRefused :
    let s := start .v6502 true 0x30 0x00 0x2000 [0x02]
    s.quiet = true ∧ Backed s (s.fetchAddr 0) ∧ (opcodeRow? s.cfg.variant (s.cell (s.fetchAddr 0))).isNone := by decide

theorem witness_PlacedWordRunsNext : decodeTableWord 8 0xEA = some .nop ∧ decodeTableWord 32 0x7E12345C = some (.jmpLong 0x7E1234) := by
  decide

theorem witness_StepKeepsInvariant : [s8, sE, s16, s88].all State.inv = true ∧ ∃ t, step s16 = .next t :=
  ⟨by decide, _, rfl⟩

theorem witness_StepKeepsLaunch : ∃ t, step s8 = .next t := ⟨_, rfl⟩

theorem witness_EveryInstructionCompletes :
    NoDevice s8.cfg ∧ NoDevice (onMap [⟨0xFE00, 0x100, .unmapped⟩, ⟨0xC000, 0x4000, .rom⟩] s16).cfg := by
  unfold NoDevice; decide

theorem witness_SpecialRegisterWriters :
    ((∃ t, exec .tcd s16 = .next t ∧ t.d ≠ s16.d) ∧ (∃ t, exec .plb s16 = .next t ∧ t.dbr ≠ s16.dbr)) ∧
    (∃ t, exec (.jmpLong 0) s16 = .next t ∧ t.pbr ≠ s16.pbr) ∧ (∃ t, exec .xce { s16 with p := 0x01 } = .next t ∧ t.e ≠ s16.e) ∧
    (∃ t, exec .wai s16 = .next t ∧ t.run ≠ s16.run) :=
  ⟨⟨⟨_, rfl, by decide⟩, ⟨_, rfl, by decide⟩⟩, ⟨_, rfl, by decide⟩, ⟨_, rfl, by decide⟩, ⟨_, rfl, by decide⟩⟩

theorem witness_ResetEventValues :
    let s := given true true true true true { s16 with run := .stopped }
    s.nextInput.reset = true ∧ Backed s 0x00FFFC ∧ Backed s 0x00FFFD := by decide

/-- One input for each of the four outcomes: RESET, NMI, IRQ, an instruction. -/
theorem witness_BoundaryOrder :
    ([given true true true false false s8, given true true false false false s8, given true false false false false s8,
      given false false false false false s8].map fun s =>
        (s.run == .running, s.nextInput.abort, s.nextInput.overflowPin, s.nextInput.reset, s.nextInput.nmiEdge,
          s.nextInput.irqLine && !s.flag .i)) =
      [(true, false, false, true, true, true), (true, false, false, false, true, true),
        (true, false, false, false, false, true), (true, false, false, false, false, false)] := by decide

theorem witness_WaitingAndStopped :
    let s := given true false false false false { s16 with run := .waiting }
    s.nextInput.reset = false ∧ s.nextInput.abort = false ∧ s.run = .waiting ∧
      ({ s with run := .stopped } : State).run = .stopped := by decide

theorem witness_ByteAccessByKind :
    let s := onMap [⟨0x1000, 1, .rom⟩, ⟨0x1001, 1, .unmapped⟩, ⟨0x1002, 1, .device⟩] s8
    kindAt s.cfg 0x0FFF = .ram ∧ kindAt s.cfg 0x1000 = .rom ∧ kindAt s.cfg 0x1001 = .unmapped ∧ kindAt s.cfg 0x1002 = .device ∧
      kindAt s.cfg 0x1003 = .ram := by decide

/-- At the end of memory, of a bank and of a page. -/
theorem witness_MultiByteReads :
    ∀ wrap ∈ [Wrap.lin, .bank, .page], ∀ a ∈ [(0xFFFFFF : Addr), 0x01FFFF, 0x0010FF],
      Backed s16 a ∧ Backed s16 (s16.succ a wrap) ∧ Backed s16 (s16.succ (s16.succ a wrap) wrap) :=
  fun _ _ _ _ => ⟨.inl rfl, .inl rfl, .inl rfl⟩

theorem witness_LoadAfterStore :
    ∀ b ∈ storedBytes .w16 0x00FFFF .bank s16, kindAt s16.cfg b = .ram := fun _ _ => rfl

theorem witness_OperandReadsChangeNothing :
    operand (.imm 0xFFFF) .w8 s8 = .ok 0x00FF s8 ∧ operand (.mem (.abs 0x2000)) .w16 s88 = .ok 0x00EA s88 := ⟨rfl, rfl⟩

theorem witness_DirectEffectiveAddresses : sE.is816 = true ∧ s16.is816 = true := by decide

/-- In each of the three cases of R121, with a pointer at the end of the page or of the bank. -/
theorem witness_IndirectEffectiveAddresses :
    (∀ s ∈ [s8, sE, s16], ∀ o1 ∈ [(0x00 : Byte), 0xFF],
      Backed s (BitVec.ofNat 24 (s.dpNat o1.toNat)) ∧ Backed s (BitVec.ofNat 24 (s.dpNextNat (s.dpNat o1.toNat))) ∧
      Backed s (BitVec.ofNat 24 (s.dpNat (o1.toNat + s.x.toNat))) ∧
      Backed s (BitVec.ofNat 24 (s.dpNextNat (s.dpNat (o1.toNat + s.x.toNat)))) ∧
      (∀ n < 3, Backed s (BitVec.ofNat 24 ((s.d.toNat + o1.toNat + n) % 65536))) ∧
      (∀ n < 2, Backed s (BitVec.ofNat 24 ((s.sp.toNat + o1.toNat + n) % 65536)))) ∧
    s8.is816 = false ∧ (sE.is816 = true ∧ sE.PageCase) ∧ (s16.is816 = true ∧ ¬s16.PageCase) := by decide

theorem witness_AdcBinary :
    (adcForm (.imm 0xFF) = some (.adcImm 0xFF) ∧ s88.flag .d = false ∧ operand (.imm 0xFF) s88.wm s88 = .ok 0x00FF s88) ∧
    (adcForm (.mem (.abs 0)) = some (.adcAbs 0) ∧ s16.flag .d = false ∧ operand (.mem (.abs 0)) s16.wm s16 = .ok 0 s16) :=
  ⟨⟨rfl, rfl, rfl⟩, rfl, rfl, rfl⟩

theorem witness_SbcBinary :
    (sbcForm (.imm 0xFF) = some (.sbcImm 0xFF) ∧ s8.flag .d = false ∧ operand (.imm 0xFF) s8.wm s8 = .ok 0x00FF s8) ∧
    (sbcForm (.mem (.dpIndY 0)) = some (.sbcDpIndY 0) ∧ s16.flag .d = false ∧
      operand (.mem (.dpIndY 0)) s16.wm s16 = .ok 0 s16) :=
  ⟨⟨rfl, rfl, rfl⟩, rfl, rfl, rfl⟩

theorem witness_OverflowIsSigned : (0x00FF : Word).toNat < modulus .w8 ∧ (0xFFFF : Word).toNat < modulus .w16 := by decide

/-- Valid and invalid operands, on a variant that defines n and z and on V6502. -/
theorem witness_AdcDecimal :
    let s := { s88 with p := 0x39 }
    let u := { s8 with p := 0x38, c := 0x000A }
    (adcForm (.imm 0x99) = some (.adcImm 0x99) ∧ s.flag .d = true ∧ operand (.imm 0x99) s.wm s = .ok 0x0099 s) ∧
    (bcdValid 2 (s.accNat .w8) = true ∧ bcdValid 2 0x99 = true ∧ s.cfg.variant ≠ .v6502) ∧
    (u.flag .d = true ∧ operand (.imm 0x01) u.wm u = .ok 0x0001 u ∧ bcdValid 2 (u.accNat .w8) = false) :=
  ⟨⟨rfl, rfl, rfl⟩, by decide, rfl, rfl, by decide⟩

theorem witness_SbcDecimal :
    let s := { s16 with p := 0x08 }
    (sbcForm (.imm 0x9999) = some (.sbcImm 0x9999) ∧ s.flag .d = true ∧ operand (.imm 0x9999) s.wm s = .ok 0x9999 s) ∧
    (bcdValid 4 (s.accNat .w16) = true ∧ bcdValid 4 0x9999 = true ∧ s.cfg.variant ≠ .v6502) :=
  ⟨⟨rfl, rfl, rfl⟩, by decide⟩

theorem witness_BcdDigits : 9999 < 10 ^ 4 ∧ 0x9999 < 16 ^ 4 ∧ bcdValid 4 0x9999 = true := by decide

/-- The memory operands of the two statements about read-modify-write instructions: 8 bits wide at the end of the page, 16
bits wide at the end of memory. -/
theorem witness_RmwOperands :
    effAddr (.dpIdx .x 0xFF) sE = .ok ⟨0x0000FE, .bank⟩ sE ∧ load sE.wm 0x0000FE .bank sE = .ok 0 sE ∧
    effAddr (.abs 0xFFFF) s16 = .ok ⟨0xFFFFFF, .lin⟩ s16 ∧ load s16.wm 0xFFFFFF .lin s16 = .ok 0 s16 := ⟨rfl, rfl, rfl, rfl⟩

theorem witness_IncrementDecrement :
    ∀ op ∈ [RmwOp.inc, .dec], (rmwForm op .acc).isSome ∧ (rmwForm op (.mem (.dpIdx .x 0xFF))).isSome ∧
      (rmwForm op (.mem (.abs 0xFFFF))).isSome := by decide

theorem witness_ShiftsAndRotates :
    ∀ op ∈ [RmwOp.asl, .lsr, .rol, .ror], (rmwForm op .acc).isSome ∧ (rmwForm op (.mem (.dpIdx .x 0xFF))).isSome ∧
      (rmwForm op (.mem (.abs 0xFFFF))).isSome := by decide

theorem witness_LogicalOperations :
    operand (.mem (.sr 0xFF)) s16.wm s16 = .ok 0 s16 ∧ andForm (.mem (.sr 0xFF)) = some (.andSr 0xFF) ∧
      eorForm (.mem (.sr 0xFF)) = some (.eorSr 0xFF) ∧ oraForm (.mem (.sr 0xFF)) = some (.oraSr 0xFF) := ⟨rfl, rfl, rfl, rfl⟩

theorem witness_BitTest :
    bitForm (.abs 0x2000) = some (.bitAbs 0x2000) ∧ operand (.mem (.abs 0x2000)) s8.wm s8 = .ok 0x00EA s8 ∧
      operand (.imm 0xFFFF) s16.wm s16 = .ok 0xFFFF s16 := ⟨rfl, rfl, rfl⟩

theorem witness_TestAndModify :
    effAddr (.abs 0x2000) s88 = .ok ⟨0x002000, .lin⟩ s88 ∧ load s88.wm 0x002000 .lin s88 = .ok 0x00EA s88 ∧
      trbForm (.abs 0x2000) = some (.trbAbs 0x2000) ∧ tsbForm (.abs 0x2000) = some (.tsbAbs 0x2000) := ⟨rfl, rfl, rfl, rfl⟩

theorem witness_Compares :
    (cmpForm (.imm 0x99) = some (.cmpImm 0x99) ∧ operand (.imm 0x99) s88.wm s88 = .ok 0x0099 s88) ∧
    (cpxForm (.imm 0x80) = some (.cpxImm 0x80) ∧ operand (.imm 0x80) s88.wx s88 = .ok 0x0080 s88) ∧
    (cpyForm (.imm 0xFFFF) = some (.cpyImm 0xFFFF) ∧ operand (.imm 0xFFFF) s16.wx s16 = .ok 0xFFFF s16) :=
  ⟨⟨rfl, rfl⟩, ⟨rfl, rfl⟩, rfl, rfl⟩

/-- With the pointer at the end of a page on V6502 and at the end of the bank. -/
theorem witness_IndirectJumps :
    (Backed s8 0x0030FF ∧ Backed s8 0x003000) ∧ (∀ n < 3, Backed s16 (BitVec.ofNat 24 ((0xFFFF + n) % 65536))) ∧
      (Backed s16 (addrOf s16.progBank (0x7FFF + s16.x)) ∧ Backed s16 (addrOf s16.progBank (0x7FFF + s16.x + 1))) := by decide

/-- With the stack pointer at the bottom of its page and of the bank. -/
theorem witness_Calls :
    ∀ s ∈ [s8, sE, s16], s.emulationForced = true ∧ CanPush 3 s ∧ CanPush 2 s ∧ Backed s (addrOf s.progBank (0x7FFF + s.x)) ∧
      Backed s (addrOf s.progBank (0x7FFF + s.x + 1)) := by decide

theorem witness_Returns : ∀ s ∈ [s8, sE, { s16 with sp := 0xFFFF }], CanPull 2 s ∧ CanPull 3 s := by decide

theorem witness_ReturnUndoesCall :
    ∀ s ∈ [s8, sE, s16], s.emulationForced = true ∧ ∀ k < 3, kindAt s.cfg (s.pushSlot k) = .ram := by decide

theorem witness_Loads :
    (ldaForm (.mem (.dpIndLongY 0xFF)) = some (.ldaDpIndLongY 0xFF) ∧
      operand (.mem (.dpIndLongY 0xFF)) s16.wm s16 = .ok 0 s16) ∧
    (ldxForm s16.cfg.ldxIndex (.mem (.absIdx .y 0xFFFF)) = some (.ldxAbsIdx 0xFFFF) ∧
      operand (.mem (.absIdx .y 0xFFFF)) s16.wx s16 = .ok 0 s16) ∧
    (ldyForm (.imm 0x80) = some (.ldyImm 0x80) ∧ operand (.imm 0x80) s8.wx s8 = .ok 0x0080 s8) :=
  ⟨⟨rfl, rfl⟩, ⟨rfl, rfl⟩, rfl, rfl⟩

theorem witness_Stores :
    staForm (.dp 0xFF) = some (.staDp 0xFF) ∧ stxForm (.dp 0xFF) = some (.stxDp 0xFF) ∧ styForm (.dp 0xFF) = some (.styDp 0xFF) ∧
      stzForm (.dp 0xFF) = some (.stzDp 0xFF) ∧ effAddr (.dp 0xFF) s16 = .ok ⟨0x0000FE, .bank⟩ s16 ∧
      (∀ a ∈ storedBytes s16.wm 0x0000FE .bank s16, NotDevice s16 a) :=
  ⟨rfl, rfl, rfl, rfl, rfl, fun _ _ h => nomatch (show MemKind.ram = .device from h)⟩

theorem witness_PullInstructions :
    ∀ s ∈ [s8, sE, s16, s88], CanPull (widthBits s.wm / 8) s ∧ CanPull (widthBits s.wx / 8) s ∧ CanPull 1 s ∧ CanPull 2 s := by
  decide

theorem witness_PushInstructions :
    (∀ s ∈ [s8, sE, s16, s88], s.emulationForced = true ∧ CanPush 1 s ∧ CanPush 2 s) ∧
    (s16.is816 = true ∧ ∀ n < 2, Backed s16 (BitVec.ofNat 24 ((s16.d.toNat + 0xFF + n) % 65536))) := by decide

theorem witness_SoftwareInterrupts :
    ∀ s ∈ [s8, sE, s16], s.emulationForced = true ∧ CanEnter .brk s ∧ CanEnter .cop s := by decide

/-- Every kind, in every mode. -/
theorem witness_InterruptEntry :
    ∀ s ∈ [s8, sE, s16], s.emulationForced = true ∧ ∀ k ∈ [IntKind.brk, .cop, .irq, .nmi], CanEnter k s := by decide

theorem witness_ReturnFromInterrupt :
    ∀ s ∈ [s8, sE, { s16 with sp := 0xFFFF }], CanPull (if s.emulation then 3 else 4) s := by decide

theorem witness_ReturnUndoesEntry :
    ∀ s ∈ [s8, sE, s16], s.inv = true ∧ (∀ n < (if s.emulation then 3 else 4), kindAt s.cfg (s.pushSlot n) = .ram) ∧
      ∀ k ∈ [IntKind.brk, .cop, .irq, .nmi], Backed s (s.vectorAddr k) ∧ Backed s (s.vectorAddr k + 1) := by decide

/-- Before the last byte and at it, under both operand orders. -/
theorem witness_BlockMoveStep :
    let u := { s16 with c := 0, cfg := { s16.cfg with blockMoveOrder := .dstFirst } }
    (s16.c ≠ 0 ∧ read8 (addrOf (s16.moveFrom 1 2) s16.x) s16 = .ok 0 s16 ∧ NotDevice s16 (addrOf (s16.moveTo 1 2) s16.y)) ∧
    (u.c = 0 ∧ read8 (addrOf (u.moveFrom 1 2) u.x) u = .ok 0 u ∧ NotDevice u (addrOf (u.moveTo 1 2) u.y)) :=
  ⟨⟨by decide, rfl, by decide⟩, rfl, rfl, by decide⟩

/-- Two blocks of three bytes that are apart, the first one wrapping at the end of its page. -/
theorem witness_BlockMoveRuns :
    let s := { s88 with c := 2 }
    NoDevice s.cfg ∧ s.idxNarrow = true ∧
    (∀ k ≤ s.c.toNat, kindAt s.cfg (addrOf (s.moveFrom 0 0) (BitVec.ofNat 16 ((s.x.toNat + k) % modulus s.wx))) = .ram ∧
      kindAt s.cfg (addrOf (s.moveTo 0 0) (BitVec.ofNat 16 ((s.y.toNat + k) % modulus s.wx))) = .ram) ∧
    (∀ j ≤ s.c.toNat, ∀ k ≤ s.c.toNat,
      busAddr s.cfg (addrOf (s.moveFrom 0 0) (BitVec.ofNat 16 ((s.x.toNat + j) % modulus s.wx))) ≠
        busAddr s.cfg (addrOf (s.moveTo 0 0) (BitVec.ofNat 16 ((s.y.toNat + k) % modulus s.wx)))) := by
  unfold NoDevice; decide

/-- A native, an emulation and a returning machine for XCE, whose statement has one clause for each. -/
theorem witness_ExchangeCarryAndEmulation :
    (after { start .v65816 false 0x01 0x00 0x2000 [0xFB] with x := 0x1234 } fun t => (t.e, t.x)) = some (true, 0x0034) ∧
    (after (start .v65816 true 0x30 0x00 0x2000 [0xFB]) fun t => (t.e, t.p)) = some (false, 0x31) ∧
    (after (start .v65816 false 0x00 0x00 0x2000 [0xFB]) fun t => (t.e, t.p)) = some (false, 0x00) := by decide

end Sys2Proof.Tests
end

section
/-! PROOF. Every instruction keeps the launch and is refused only at a device (`exec_sound`): first the updates of the state
that `exec` ends with, then one lemma per shared meaning, then the 256 constructors, grouped by the meaning that `exec`
gives them. With no device in the memory map nothing is left that could stop an instruction (60_exceptions.md R342). -/

namespace Sys2Proof.Machine

/-! ## The ends of the instructions keep the launch -/

@[simp] theorem State.shiftFlags_cfg (s : State) (w : Width) (r : Word) (out : Bool) : (s.shiftFlags w r out).cfg = s.cfg := rfl

@[simp] theorem State.compareFlags_cfg (s : State) (w : Width) (a m : Word) : (s.compareFlags w a m).cfg = s.cfg := rfl

@[simp] theorem State.testFlag_cfg (s : State) (a m : Word) : (s.testFlag a m).cfg = s.cfg := rfl

@[simp] theorem State.bitFlags_cfg (s : State) (w : Width) (a m : Word) : (s.bitFlags w a m).cfg = s.cfg := rfl

@[simp] theorem State.decimalResult_cfg (s : State) (w : Width) (r : Word) (carry : Bool) :
    (s.decimalResult w r carry).cfg = s.cfg := by
  unfold State.decimalResult; dsimp only; split <;> simp

@[simp] theorem State.decimalInvalid_cfg (s : State) (w : Width) : (s.decimalInvalid w).cfg = s.cfg := by
  simp [State.decimalInvalid]

@[simp] theorem State.adc_cfg (s : State) (w : Width) (m : Word) : (s.adc w m).cfg = s.cfg := by
  unfold State.adc; dsimp only
  split
  · split <;> simp
  · simp

@[simp] theorem State.sbc_cfg (s : State) (w : Width) (m : Word) : (s.sbc w m).cfg = s.cfg := by
  unfold State.sbc; dsimp only
  split
  · split <;> simp
  · simp

@[simp] theorem State.blockMoveRegs_cfg (s : State) (delta : Word) (dst : Byte) : (s.blockMoveRegs delta dst).cfg = s.cfg := by
  unfold State.blockMoveRegs; dsimp only; split <;> simp

@[simp] theorem State.exchangeCE_cfg (s : State) : s.exchangeCE.cfg = s.cfg := by
  unfold State.exchangeCE; dsimp only
  split
  · rfl
  · split <;> rfl

/-! ## Instructions that read an operand -/

theorem opAdc_sound (src : Source) (s : State) : SoundResult s.cfg (opAdc src s) :=
  withOperand_sound src s.wm rfl fun m t => t.adc_cfg s.wm m

theorem opSbc_sound (src : Source) (s : State) : SoundResult s.cfg (opSbc src s) :=
  withOperand_sound src s.wm rfl fun m t => t.sbc_cfg s.wm m

theorem logical_sound (f : Word → Word → Word) (src : Source) (s : State) : SoundResult s.cfg (logical f src s) :=
  withOperand_sound src s.wm rfl fun m t => t.accWrite_cfg s.wm (f (t.accRead s.wm) m)

theorem opAnd_sound (src : Source) (s : State) : SoundResult s.cfg (opAnd src s) := logical_sound _ src s

theorem opEor_sound (src : Source) (s : State) : SoundResult s.cfg (opEor src s) := logical_sound _ src s

theorem opOra_sound (src : Source) (s : State) : SoundResult s.cfg (opOra src s) := logical_sound _ src s

theorem opBit_sound (md : Mode) (s : State) : SoundResult s.cfg (opBit md s) :=
  withOperand_sound (.mem md) s.wm rfl fun m t => t.bitFlags_cfg s.wm (t.accRead s.wm) m

theorem opBitImm_sound (k : Word) (s : State) : SoundResult s.cfg (opBitImm k s) :=
  withOperand_sound (.imm k) s.wm rfl fun m t => t.testFlag_cfg (t.accRead s.wm) m

theorem opCmp_sound (src : Source) (s : State) : SoundResult s.cfg (opCmp src s) :=
  withOperand_sound src s.wm rfl fun m t => t.compareFlags_cfg s.wm (t.accRead s.wm) m

theorem opCmpIdx_sound (r : IdxReg) (src : Source) (s : State) : SoundResult s.cfg (opCmpIdx r src s) :=
  withOperand_sound src s.wx rfl fun m t => t.compareFlags_cfg s.wx (trunc s.wx (t.idx r)) m

theorem opLda_sound (src : Source) (s : State) : SoundResult s.cfg (opLda src s) :=
  withOperand_sound src s.wm rfl fun m t => t.accWrite_cfg s.wm m

theorem opLdIdx_sound (r : IdxReg) (src : Source) (s : State) : SoundResult s.cfg (opLdIdx r src s) :=
  withOperand_sound src s.wx rfl fun m t => t.idxWrite_cfg r s.wx m

/-! ## Instructions that read, modify and write -/

theorem opInc_sound (pl : Place) (s : State) : SoundResult s.cfg (opInc pl s) :=
  modify_sound pl s.wm rfl fun v t => t.setNZ_cfg s.wm (trunc s.wm (v + 1))

theorem opDec_sound (pl : Place) (s : State) : SoundResult s.cfg (opDec pl s) :=
  modify_sound pl s.wm rfl fun v t => t.setNZ_cfg s.wm (trunc s.wm (v - 1))

theorem opAsl_sound (pl : Place) (s : State) : SoundResult s.cfg (opAsl pl s) :=
  modify_sound pl s.wm rfl fun v t => t.shiftFlags_cfg s.wm (aslResult s.wm v) (msb s.wm v)

theorem opLsr_sound (pl : Place) (s : State) : SoundResult s.cfg (opLsr pl s) :=
  modify_sound pl s.wm rfl fun v t => t.shiftFlags_cfg s.wm (lsrResult v) (v.getLsbD 0)

theorem opRol_sound (pl : Place) (s : State) : SoundResult s.cfg (opRol pl s) :=
  modify_sound pl s.wm rfl fun v t => t.shiftFlags_cfg s.wm (rolResult s.wm v (s.flag .c)) (msb s.wm v)

theorem opRor_sound (pl : Place) (s : State) : SoundResult s.cfg (opRor pl s) :=
  modify_sound pl s.wm rfl fun v t => t.shiftFlags_cfg s.wm (rorResult s.wm v (s.flag .c)) (v.getLsbD 0)

theorem opTrb_sound (md : Mode) (s : State) : SoundResult s.cfg (opTrb md s) :=
  modify_sound (.mem md) s.wm rfl fun m t => t.testFlag_cfg (s.accRead s.wm) m

theorem opTsb_sound (md : Mode) (s : State) : SoundResult s.cfg (opTsb md s) :=
  modify_sound (.mem md) s.wm rfl fun m t => t.testFlag_cfg (s.accRead s.wm) m

/-! ## Instructions on registers, which no access can stop -/

theorem opIncIdx_sound (r : IdxReg) (s : State) : SoundResult s.cfg (opIncIdx r s) := s.idxWrite_cfg r s.wx (s.idx r + 1)

theorem opDecIdx_sound (r : IdxReg) (s : State) : SoundResult s.cfg (opDecIdx r s) := s.idxWrite_cfg r s.wx (s.idx r - 1)

theorem toIdx_sound (r : IdxReg) (v : Word) (s : State) : SoundResult s.cfg (toIdx r v s) := s.idxWrite_cfg r s.wx v

theorem toAcc_sound (v : Word) (s : State) : SoundResult s.cfg (toAcc v s) := s.accWrite_cfg s.wm v

theorem opSep_sound (k : Byte) (s : State) : SoundResult s.cfg (opSep k s) := by
  unfold opSep
  split
  · rfl
  · split <;> rfl

theorem branch_sound (taken : Bool) (rel : Byte) (s : State) : SoundResult s.cfg (branch taken rel s) := by
  cases taken <;> rfl

/-! ## The stack, jumps through memory, block moves -/

theorem pushing_sound {cfg : Config} {x : Access Unit} (n : Nat) (hx : x.Sound cfg) : SoundResult cfg (pushing x n) :=
  hx.andThen fun _ _ h => h

theorem pullIdx_sound (r : IdxReg) (s : State) : SoundResult s.cfg (pullIdx r s) :=
  (pullW_sound s.wx rfl).andThen fun v t h => (t.idxWrite_cfg r s.wx v).trans h

theorem execPla_sound (s : State) : SoundResult s.cfg (execPla s) :=
  (pullW_sound s.wm rfl).andThen fun v t h => (t.accWrite_cfg s.wm v).trans h

theorem execPlb_sound (s : State) : SoundResult s.cfg (execPlb s) := (pull8_sound rfl).andThen fun _ _ h => h

theorem execPld_sound (s : State) : SoundResult s.cfg (execPld s) := (pull16_sound rfl).andThen fun _ _ h => h

theorem execPlp_sound (s : State) : SoundResult s.cfg (execPlp s) :=
  (pull8_sound rfl).andThen fun v t h => (t.loadP_cfg v).trans h

theorem execPei_sound (o1 : Byte) (s : State) : SoundResult s.cfg (execPei o1 s) :=
  (read16_sound _ _ rfl).andThen fun v _ h => pushing_sound 2 (push16_sound v h)

theorem indexedPointer_sound {cfg : Config} (s : State) (a : Word) {t : State} (h : t.cfg = cfg) :
    (s.indexedPointer a t).Sound cfg := read16_sound _ _ h

theorem execJmpAbsInd_sound (a : Word) (s : State) : SoundResult s.cfg (execJmpAbsInd a s) :=
  (read16_sound _ _ rfl).andThen fun _ _ h => h

theorem execJmpAbsXInd_sound (a : Word) (s : State) : SoundResult s.cfg (execJmpAbsXInd a s) :=
  (indexedPointer_sound s a rfl).andThen fun _ _ h => h

theorem execJmpAbsIndLong_sound (a : Word) (s : State) : SoundResult s.cfg (execJmpAbsIndLong a s) :=
  (read24_sound _ _ rfl).andThen fun _ _ h => h

theorem execJsrAbs_sound (a : Word) (s : State) : SoundResult s.cfg (execJsrAbs a s) :=
  (push16_sound _ rfl).andThen fun _ _ h => h

theorem execJsrAbsXInd_sound (a : Word) (s : State) : SoundResult s.cfg (execJsrAbsXInd a s) :=
  (push16_sound _ rfl).andThen fun _ _ h1 => (indexedPointer_sound s a h1).andThen fun _ _ h2 => h2

theorem execJsl_sound (l : Addr) (s : State) : SoundResult s.cfg (execJsl l s) :=
  (push8_sound _ rfl).andThen fun _ _ h1 => (push16_sound _ h1).andThen fun _ _ h2 => h2

theorem execRts_sound (s : State) : SoundResult s.cfg (execRts s) := (pull16_sound rfl).andThen fun _ _ h => h

theorem execRtl_sound (s : State) : SoundResult s.cfg (execRtl s) :=
  (pull16_sound rfl).andThen fun _ _ h1 => (pull8_sound h1).andThen fun _ _ h2 => h2

theorem blockMove_sound (delta : Word) (o1 o2 : Byte) (s : State) : SoundResult s.cfg (blockMove delta o1 o2 s) :=
  (read8_sound' _ rfl).andThen fun v _ h1 => (write8_sound' _ v h1).andThen fun _ t h2 =>
    (t.blockMoveRegs_cfg delta (s.dstBank o1 o2)).trans h2

/-! ## Every instruction -/

/-- Every instruction keeps the launch, never faults, and is refused only where it meets a device: each constructor has one
of the meanings above, and those that touch neither memory nor the stack have a next state outright. -/
theorem exec_sound (i : Instr) (s : State) : SoundResult s.cfg (exec i s) := by
  unfold exec
  cases i with
  | adcDpXInd | adcSr | adcDp | adcDpIndLong | adcImm | adcAbs | adcLong | adcDpIndY | adcDpInd | adcSrIndY | adcDpX |
    adcDpIndLongY | adcAbsY | adcAbsX | adcLongX =>
    exact opAdc_sound _ s
  | sbcDpXInd | sbcSr | sbcDp | sbcDpIndLong | sbcImm | sbcAbs | sbcLong | sbcDpIndY | sbcDpInd | sbcSrIndY | sbcDpX |
    sbcDpIndLongY | sbcAbsY | sbcAbsX | sbcLongX =>
    exact opSbc_sound _ s
  | andDpXInd | andSr | andDp | andDpIndLong | andImm | andAbs | andLong | andDpIndY | andDpInd | andSrIndY | andDpX |
    andDpIndLongY | andAbsY | andAbsX | andLongX =>
    exact opAnd_sound _ s
  | eorDpXInd | eorSr | eorDp | eorDpIndLong | eorImm | eorAbs | eorLong | eorDpIndY | eorDpInd | eorSrIndY | eorDpX |
    eorDpIndLongY | eorAbsY | eorAbsX | eorLongX =>
    exact opEor_sound _ s
  | oraDpXInd | oraSr | oraDp | oraDpIndLong | oraImm | oraAbs | oraLong | oraDpIndY | oraDpInd | oraSrIndY | oraDpX |
    oraDpIndLongY | oraAbsY | oraAbsX | oraLongX =>
    exact opOra_sound _ s
  | bitDp | bitAbs | bitDpX | bitAbsX => exact opBit_sound _ s
  | bitImm => exact opBitImm_sound _ s
  | cmpDpXInd | cmpSr | cmpDp | cmpDpIndLong | cmpImm | cmpAbs | cmpLong | cmpDpIndY | cmpDpInd | cmpSrIndY | cmpDpX |
    cmpDpIndLongY | cmpAbsY | cmpAbsX | cmpLongX =>
    exact opCmp_sound _ s
  | cpxImm | cpxDp | cpxAbs | cpyImm | cpyDp | cpyAbs => exact opCmpIdx_sound _ _ s
  | ldaDpXInd | ldaSr | ldaDp | ldaDpIndLong | ldaImm | ldaAbs | ldaLong | ldaDpIndY | ldaDpInd | ldaSrIndY | ldaDpX |
    ldaDpIndLongY | ldaAbsY | ldaAbsX | ldaLongX =>
    exact opLda_sound _ s
  | ldxImm | ldxDp | ldxAbs | ldxDpIdx | ldxAbsIdx | ldyImm | ldyDp | ldyAbs | ldyDpX | ldyAbsX => exact opLdIdx_sound _ _ s
  | staDpXInd | staSr | staDp | staDpIndLong | staAbs | staLong | staDpIndY | staDpInd | staSrIndY | staDpX |
    staDpIndLongY | staAbsY | staAbsX | staLongX | stxDp | stxAbs | stxDpY | styDp | styAbs | styDpX | stzDp |
    stzDpX | stzAbs | stzAbsX =>
    exact storeTo_sound _ _ _ rfl
  | incA | incDp | incAbs | incDpX | incAbsX => exact opInc_sound _ s
  | decA | decDp | decAbs | decDpX | decAbsX => exact opDec_sound _ s
  | aslDp | aslA | aslAbs | aslDpX | aslAbsX => exact opAsl_sound _ s
  | lsrDp | lsrA | lsrAbs | lsrDpX | lsrAbsX => exact opLsr_sound _ s
  | rolDp | rolA | rolAbs | rolDpX | rolAbsX => exact opRol_sound _ s
  | rorDp | rorA | rorAbs | rorDpX | rorAbsX => exact opRor_sound _ s
  | trbDp | trbAbs => exact opTrb_sound _ s
  | tsbDp | tsbAbs => exact opTsb_sound _ s
  | iny | inx => exact opIncIdx_sound _ s
  | dey | dex => exact opDecIdx_sound _ s
  | txy | tay | tax | tsx | tyx => exact toIdx_sound _ _ s
  | txa | tya => exact toAcc_sound _ s
  | clc | sec | cli | sei | clv | cld | sed | rep | tcs | txs | tcd | tdc | tsc | xba | nop | wdm | wai | stp |
    jmpAbs | jmpLong | brl =>
    rfl
  | sep => exact opSep_sound _ s
  | xce => exact s.exchangeCE_cfg
  | bpl | bmi | bvc | bvs | bra | bcc | bcs | bne | beq => exact branch_sound _ _ s
  | php | phk | phb => exact pushing_sound _ (push8_sound _ rfl)
  | phd | per | pea => exact pushing_sound _ (push16_sound _ rfl)
  | pha | phy | phx => exact pushing_sound _ (pushW_sound _ _ rfl)
  | ply | plx => exact pullIdx_sound _ s
  | pla => exact execPla_sound s
  | plb => exact execPlb_sound s
  | pld => exact execPld_sound s
  | plp => exact execPlp_sound s
  | pei => exact execPei_sound _ s
  | jmpAbsInd => exact execJmpAbsInd_sound _ s
  | jmpAbsXInd => exact execJmpAbsXInd_sound _ s
  | jmpAbsIndLong => exact execJmpAbsIndLong_sound _ s
  | jsrAbs => exact execJsrAbs_sound _ s
  | jsrAbsXInd => exact execJsrAbsXInd_sound _ s
  | jsl => exact execJsl_sound _ s
  | rts => exact execRts_sound s
  | rtl => exact execRtl_sound s
  | mvp | mvn => exact blockMove_sound _ _ _ s
  | brk | cop => exact enter_sound _ _ rfl
  | rti => exact returnFromInterrupt_sound rfl

end Sys2Proof.Machine

/-- Settles O12: an instruction is stopped by a device or by nothing. -/
theorem everyInstructionCompletes : Obligations.EveryInstructionCompletes :=
  fun i s hdev => (Sys2Proof.Machine.exec_sound i s).exists_next hdev
end

section
/-! PROOF. The invariant of 10_state.md R40 and the writers of the special registers. One relation, `Keeps rs s t`, says what
an instruction may do to the state: of the registers it changes at most the working ones and those of `rs`, and it breaks
nothing of the invariant that holds on every variant (`Tidy`). It is shown of each update of the state, of each access, of
each shared meaning, and so of the 256 constructors (`exec_keeps`), with `rs` the special registers of the instruction. An
8-bit variant has no instruction with special registers. `StepClosed` carries a predicate over a step. -/

namespace Sys2Proof.Machine

/-! ## The invariant in parts -/

/-- The invariant without the clause on the 8-bit variants: no instruction breaks it, available or not. -/
structure Tidy (s : State) : Prop where
  idx : s.idxNarrow = true
  forced : s.emulationForced = true
  mem : s.mem.wf = true

theorem inv_iff (s : State) : s.inv = true ↔ Tidy s ∧ s.variantFixed = true := by
  simp only [State.inv, Bool.and_eq_true]
  exact ⟨fun ⟨⟨⟨hi, hf⟩, hv⟩, hm⟩ => ⟨⟨hi, hf, hm⟩, hv⟩,
    fun ⟨⟨hi, hf, hm⟩, hv⟩ => ⟨⟨⟨hi, hf⟩, hv⟩, hm⟩⟩

theorem wx_eq_w8_iff (s : State) : s.wx = .w8 ↔ s.emulation = true ∨ s.flag .x = true := by
  unfold State.wx
  cases s.emulation <;> cases s.flag .x <;> simp

theorem idxNarrow_iff (s : State) :
    s.idxNarrow = true ↔ (s.emulation = true ∨ s.flag .x = true → highByte s.x = 0 ∧ highByte s.y = 0) := by
  rw [← wx_eq_w8_iff]
  unfold State.idxNarrow
  cases s.wx <;> simp

theorem emulationForced_iff (s : State) :
    s.emulationForced = true ↔ (s.emulation = true → highByte s.sp = 1 ∧ s.flag .m = true ∧ s.flag .x = true) := by
  unfold State.emulationForced
  cases s.emulation <;> simp [and_assoc]

/-- What is fixed on the 8-bit variants. -/
theorem variantFixed_iff (s : State) :
    s.variantFixed = true ↔
      (s.is816 = false → s.e = true ∧ s.d = 0 ∧ s.dbr = 0 ∧ s.pbr = 0 ∧ s.run = .running) := by
  unfold State.variantFixed
  cases s.is816 <;> simp [and_assoc]

theorem emulation_of_e {s : State} (h : s.e = true) : s.emulation = true := by simp [State.emulation, h]

theorem is816_of_native {s : State} (h : s.emulation = false) : s.is816 = true := by
  simp only [State.emulation, Bool.or_eq_false_iff, Bool.not_eq_false'] at h; exact h.1

@[simp] theorem highByte_and_ff (v : Word) : highByte (v &&& 0x00FF) = 0 := by
  apply BitVec.eq_of_toNat_eq
  have := toNat_trunc .w8 v
  rw [toNat_highByte]
  simp only [trunc, modulus_w8] at this
  rw [this]
  simp

/-- In native mode S is free, and so are X and Y when they have 16 bits. -/
theorem Tidy.of_native {t : State} (he : t.emulation = false)
    (hx : t.flag .x = true → highByte t.x = 0 ∧ highByte t.y = 0) (hm : t.mem.wf = true) : Tidy t where
  idx := (idxNarrow_iff t).2 (by simpa [he] using hx)
  forced := (emulationForced_iff t).2 (by simp [he])
  mem := hm

/-- In emulation mode S is in page 1, m and x are 1, and X and Y have no high byte. -/
theorem Tidy.of_emulation {t : State} (hs : highByte t.sp = 1) (hfm : t.flag .m = true) (hfx : t.flag .x = true)
    (hx : highByte t.x = 0 ∧ highByte t.y = 0) (hm : t.mem.wf = true) : Tidy t where
  idx := (idxNarrow_iff t).2 fun _ => hx
  forced := (emulationForced_iff t).2 fun _ => ⟨hs, hfm, hfx⟩
  mem := hm

theorem Tidy.flags {s : State} (h : Tidy s) (he : s.emulation = true) : s.flag .m = true ∧ s.flag .x = true :=
  ((emulationForced_iff s).1 h.forced he).2

/-- A change of P that leaves m and x. -/
theorem Tidy.withP {s : State} (h : Tidy s) {p : Byte} (hm : getFlag p .m = s.flag .m) (hx : getFlag p .x = s.flag .x) :
    Tidy { s with p := p } where
  idx := by
    have h1 := (idxNarrow_iff s).1 h.idx
    rw [← hx] at h1
    exact (idxNarrow_iff { s with p := p }).2 h1
  forced := by
    have h1 := (emulationForced_iff s).1 h.forced
    rw [← hm, ← hx] at h1
    exact (emulationForced_iff { s with p := p }).2 h1
  mem := h.mem

/-! ## What an instruction may do to the state -/

/-- The registers that an instruction may change without being one of the few writers of a special register. -/
def workRegs : List Reg := [.c, .x, .y, .sp, .pc]

/-- Of the registers only the working ones and those of `rs` differ, and a tidy state stays tidy. -/
structure Keeps (rs : List Reg) (s t : State) : Prop where
  regs : RegsBut (workRegs ++ rs) s t
  tidy : Tidy s → Tidy t

/-- An access that answers keeps the state in this sense. -/
def Access.Keeps {α : Type} (rs : List Reg) (s : State) : Access α → Prop
  | .ok _ t => Machine.Keeps rs s t
  | .stop _ => True

/-- The same of an instruction. -/
def KeepsResult (rs : List Reg) (s : State) : Result → Prop
  | .next t => Keeps rs s t
  | .fault _ => True
  | .refused _ => True

variable {rs : List Reg}

theorem Keeps.refl (s : State) : Keeps rs s s := ⟨fun r _ => by cases r <;> rfl, id⟩

theorem Keeps.trans {s t u : State} (h : Keeps rs s t) (h' : Keeps rs t u) : Keeps rs s u :=
  ⟨h.regs.trans h'.regs, fun hs => h'.tidy (h.tidy hs)⟩

/-- A state that differs in working registers, P, memory and the free draws alone. -/
theorem Keeps.of_work {s t : State} (ht : Tidy s → Tidy t)
    (h : t = { s with c := t.c, x := t.x, y := t.y, sp := t.sp, pc := t.pc, p := t.p, mem := t.mem,
                      freeIndex := t.freeIndex }) : Keeps rs s t := by
  refine ⟨fun r hr => ?_, ht⟩
  cases r with
  | c | x | y | sp | pc => exact absurd (List.mem_append_left rs (by decide)) hr
  | d | dbr | pbr | e | run | nmiPending | irqLine | inputs | cfg => rw [h]; rfl

theorem Access.Keeps.after {α : Type} {s u : State} {x : Access α} (h : Machine.Keeps rs s u) (hx : x.Keeps rs u) :
    x.Keeps rs s := by
  cases x with
  | ok a t => exact Machine.Keeps.trans h hx
  | stop r => trivial

theorem KeepsResult.after {s u : State} {x : Result} (h : Keeps rs s u) (hx : KeepsResult rs u x) : KeepsResult rs s x := by
  cases x with
  | next t => exact h.trans hx
  | fault r => trivial
  | refused r => trivial

theorem Access.Keeps.bind {α β : Type} {s : State} {x : Access α} {f : α → State → Access β} (hx : x.Keeps rs s)
    (hf : ∀ a u, x = .ok a u → (f a u).Keeps rs u) : (x.bind f).Keeps rs s := by
  cases x with
  | ok a u => exact (hf a u rfl).after hx
  | stop r => trivial

theorem Access.Keeps.andThen {α : Type} {s : State} {x : Access α} {f : α → State → Result} (hx : x.Keeps rs s)
    (hf : ∀ a u, x = .ok a u → KeepsResult rs u (f a u)) : KeepsResult rs s (x.andThen f) := by
  cases x with
  | ok a u => exact (hf a u rfl).after hx
  | stop r => trivial

/-- What a sound access keeps of the launch. -/
theorem Access.Sound.cfg_of_ok {α : Type} {cfg : Config} {x : Access α} {a : α} {t : State} (hx : x.Sound cfg)
    (h : x = .ok a t) : t.cfg = cfg := by rw [h] at hx; exact hx

/-! ## Updates of the state -/

theorem keeps_advance (s : State) (n : Nat) : Keeps rs s (s.advance n) := .of_work (fun h => ⟨h.idx, h.forced, h.mem⟩) rfl

theorem keeps_pc (s : State) (v : Word) : Keeps rs s { s with pc := v } :=
  .of_work (fun h => ⟨h.idx, h.forced, h.mem⟩) rfl

theorem keeps_c (s : State) (v : Word) : Keeps rs s { s with c := v } :=
  .of_work (fun h => ⟨h.idx, h.forced, h.mem⟩) rfl

theorem keeps_p {s : State} {p : Byte} (hm : Tidy s → getFlag p .m = s.flag .m) (hx : Tidy s → getFlag p .x = s.flag .x) :
    Keeps rs s { s with p := p } := .of_work (fun h => h.withP (hm h) (hx h)) rfl

theorem keeps_drawn (s : State) : Keeps rs s s.drawn := .of_work (fun h => ⟨h.idx, h.forced, h.mem⟩) rfl

theorem keeps_setFlag (s : State) {f : Flag} (b : Bool) (hm : f ≠ .m) (hx : f ≠ .x) : Keeps rs s (s.setFlag f b) :=
  keeps_p (fun _ => by simp [getFlag_putFlag, hm.symm, State.flag]) fun _ => by simp [getFlag_putFlag, hx.symm, State.flag]

theorem keeps_drawFlag (s : State) {f : Flag} (hm : f ≠ .m) (hx : f ≠ .x) : Keeps rs s (s.drawFlag f) :=
  (keeps_setFlag s _ hm hx).trans (keeps_drawn _)

theorem keeps_setNZ (s : State) (w : Width) (v : Word) : Keeps rs s (s.setNZ w v) :=
  (keeps_setFlag s _ (by decide) (by decide)).trans (keeps_setFlag _ _ (by decide) (by decide))

theorem keeps_accWrite (s : State) (w : Width) (v : Word) : Keeps rs s (s.accWrite w v) := by
  cases w
  · exact keeps_c s _
  · exact keeps_c s v

/-- Data of 8 bits has no high byte, and while an index register has 16 bits none of R40 (a) is asked of it. -/
theorem keeps_idxWrite {s : State} {w : Width} (hw : w = s.wx) (r : IdxReg) (v : Word) : Keeps rs s (s.idxWrite r w v) := by
  refine .of_work (fun h => ⟨?_, ?_, ?_⟩) (by cases r <;> rfl)
  · have hi := (idxNarrow_iff s).1 h.idx
    refine (idxNarrow_iff _).2 fun hn => ?_
    rw [State.emulation_idxWrite, State.flag_idxWrite] at hn
    obtain rfl : w = .w8 := hw.trans ((wx_eq_w8_iff s).2 hn)
    cases r
    · exact ⟨highByte_and_ff v, (hi hn).2⟩
    · exact ⟨(hi hn).1, highByte_and_ff v⟩
  · rw [State.emulationForced_congr (s := s) (by simp) (by simp) (by simp) (by simp)]; exact h.forced
  · simpa using h.mem

theorem keeps_moveS (s : State) (n : Word) : Keeps rs s (s.moveS n) := by
  refine .of_work (fun h => ⟨?_, emulationForced_moveS h.forced n, by simpa using h.mem⟩) ?_
  · rw [idxNarrow_iff]; simpa using (idxNarrow_iff s).1 h.idx
  · unfold State.moveS; split <;> rfl

/-- A write of S: in emulation mode it must stay in page 1. -/
theorem keeps_sp {s : State} {v : Word} (hv : s.emulation = true → highByte v = 1) : Keeps rs s { s with sp := v } := by
  refine .of_work (fun h => ⟨h.idx, ?_, h.mem⟩) rfl
  exact (emulationForced_iff { s with sp := v }).2 fun he => ⟨hv he, h.flags he⟩

/-- A write of P in native mode that does not set x. -/
theorem keeps_p_native {s : State} (he : s.emulation = false) {p : Byte} (hx : getFlag p .x = true → s.flag .x = true) :
    Keeps rs s { s with p := p } :=
  .of_work (fun h => .of_native he (fun h1 => (idxNarrow_iff s).1 h.idx (.inr (hx h1))) h.mem) rfl

/-- A write of P in native mode that sets x, and clears the high bytes of X and Y. -/
theorem keeps_p_clearIdxHigh {s : State} (he : s.emulation = false) (p : Byte) :
    Keeps rs s ({ s with p := p } : State).clearIdxHigh :=
  .of_work (fun h => .of_native he (fun _ => ⟨highByte_and_ff _, highByte_and_ff _⟩) h.mem) rfl

/-- PLP and RTI: bits 5 and 4 stay 1 where they are no flags, and setting x clears the high bytes of X and Y. -/
theorem keeps_loadP (s : State) (v : Byte) : Keeps rs s (s.loadP v) := by
  unfold State.loadP
  split
  · next he =>
    refine keeps_p (fun h => ?_) fun h => ?_
    · obtain ⟨hm, _⟩ := h.flags he
      rw [hm]; simp [getFlag, Flag.bit]
    · obtain ⟨_, hx⟩ := h.flags he
      rw [hx]; simp [getFlag, Flag.bit]
  · next he =>
    rw [Bool.not_eq_true] at he
    split
    · exact keeps_p_clearIdxHigh he v
    · next hx => exact keeps_p_native he fun h => absurd h hx

theorem keeps_onlyDraws {s t : State} (h : OnlyDraws s t) : Keeps rs s t := by
  rw [h]; exact .of_work (fun h => ⟨h.idx, h.forced, h.mem⟩) rfl

theorem keeps_stored8 (a : Addr) (b : Byte) (s : State) : Keeps rs s (stored8 a b s) := by
  have hm := onlyMem_stored8 a b s
  refine .of_work (fun h => ⟨?_, emulationForced_stored8 h.forced a b, wf_stored8 h.mem a b⟩) (by rw [hm])
  rw [hm]; exact h.idx

theorem keeps_d (hr : .d ∈ rs) (s : State) (v : Word) : Keeps rs s { s with d := v } := by
  refine ⟨fun r hn => ?_, fun h => ⟨h.idx, h.forced, h.mem⟩⟩
  cases r with
  | d => exact absurd (List.mem_append_right _ hr) hn
  | _ => rfl

theorem keeps_dbr (hr : .dbr ∈ rs) (s : State) (v : Byte) : Keeps rs s { s with dbr := v } := by
  refine ⟨fun r hn => ?_, fun h => ⟨h.idx, h.forced, h.mem⟩⟩
  cases r with
  | dbr => exact absurd (List.mem_append_right _ hr) hn
  | _ => rfl

theorem keeps_pbr (hr : .pbr ∈ rs) (s : State) (v : Byte) : Keeps rs s { s with pbr := v } := by
  refine ⟨fun r hn => ?_, fun h => ⟨h.idx, h.forced, h.mem⟩⟩
  cases r with
  | pbr => exact absurd (List.mem_append_right _ hr) hn
  | _ => rfl

theorem keeps_run (hr : .run ∈ rs) (s : State) (v : RunState) : Keeps rs s { s with run := v } := by
  refine ⟨fun r hn => ?_, fun h => ⟨h.idx, h.forced, h.mem⟩⟩
  cases r with
  | run => exact absurd (List.mem_append_right _ hr) hn
  | _ => rfl

/-- XCE leaves a tidy state: entering emulation mode forces it, and leaving it keeps what was forced. -/
theorem tidy_exchangeCE {s : State} (h : Tidy s) : Tidy s.exchangeCE := by
  have hi := (idxNarrow_iff s).1 h.idx
  have hf := (emulationForced_iff s).1 h.forced
  unfold State.exchangeCE
  dsimp only
  split
  · exact .of_emulation (highByte_wordOf _ _) (by simp [State.flag, getFlag_putFlag]) (by simp [State.flag, getFlag_putFlag])
      ⟨highByte_and_ff _, highByte_and_ff _⟩ h.mem
  · next hc =>
    split
    · next he =>
      have he' := emulation_of_e he
      exact .of_emulation (hf he').1 (by simp) (by simp) (hi (.inl he')) h.mem
    · next he =>
      have hce : s.flag .c = s.e := by simpa [he] using hc
      rw [hce]
      exact (keeps_setFlag (rs := []) s s.e (by decide) (by decide)).tidy h

theorem keeps_exchangeCE (hr : .e ∈ rs) (s : State) : Keeps rs s s.exchangeCE := by
  refine ⟨fun r hn => ?_, tidy_exchangeCE⟩
  cases r with
  | c | x | y | sp | pc => exact absurd (List.mem_append_left rs (by decide)) hn
  | e => exact absurd (List.mem_append_right _ hr) hn
  | _ => simp only [Reg.Same]; unfold State.exchangeCE; dsimp only; split <;> [rfl; split <;> rfl]

/-! ## Accesses and the stack -/

/-- An access that changes nothing but the count of free draws. -/
theorem Access.Keeps.of_onlyDraws {α : Type} {s : State} {x : Access α} (h : ∀ a t, x = .ok a t → OnlyDraws s t) :
    x.Keeps rs s := by
  cases x with
  | ok a t => exact keeps_onlyDraws (h a t rfl)
  | stop r => trivial

theorem read8_keeps (a : Addr) (s : State) : (read8 a s).Keeps rs s := .of_onlyDraws fun _ _ => read8_onlyDraws

theorem write8_keeps (a : Addr) (b : Byte) (s : State) : (write8 a b s).Keeps rs s := by
  cases h : write8 a b s with
  | ok u t => obtain ⟨_, rfl⟩ := write8_eq_ok h; exact keeps_stored8 a b s
  | stop r => trivial

theorem read16_keeps (a : Addr) (wrap : Wrap) (s : State) : (read16 a wrap s).Keeps rs s :=
  .of_onlyDraws fun _ _ => read16_onlyDraws

theorem read24_keeps (a : Addr) (wrap : Wrap) (s : State) : (read24 a wrap s).Keeps rs s :=
  .of_onlyDraws fun _ _ => read24_onlyDraws

theorem effAddr_keeps (m : Mode) (s : State) : (effAddr m s).Keeps rs s := .of_onlyDraws fun _ _ => effAddr_onlyDraws

theorem load_keeps (w : Width) (a : Addr) (wrap : Wrap) (s : State) : (load w a wrap s).Keeps rs s :=
  .of_onlyDraws fun _ _ => load_onlyDraws

theorem store_keeps (w : Width) (a : Addr) (wrap : Wrap) (v : Word) (s : State) : (store w a wrap v s).Keeps rs s := by
  cases w
  · exact write8_keeps a _ s
  · exact (write8_keeps a _ s).bind fun _ u _ => write8_keeps _ _ u

theorem operand_onlyDraws {src : Source} {w : Width} {s t : State} {m : Word} (h : operand src w s = .ok m t) :
    OnlyDraws s t := by
  cases src with
  | imm k => cases h; exact OnlyDraws.refl _
  | mem md =>
    obtain ⟨_, _, h1, h2⟩ := operand_mem_eq_ok h
    exact (effAddr_onlyDraws h1).trans (load_onlyDraws h2)

theorem OnlyDraws.wx {s t : State} (h : OnlyDraws s t) : t.wx = s.wx := by rw [h]; rfl

theorem operand_keeps (src : Source) (w : Width) (s : State) : (operand src w s).Keeps rs s :=
  .of_onlyDraws fun _ _ => operand_onlyDraws

theorem push8_keeps (v : Byte) (s : State) : (push8 v s).Keeps rs s :=
  (write8_keeps _ v s).bind fun _ u _ => keeps_moveS u _

theorem push16_keeps (v : Word) (s : State) : (push16 v s).Keeps rs s :=
  (push8_keeps _ s).bind fun _ u _ => push8_keeps _ u

theorem pushW_keeps (w : Width) (v : Word) (s : State) : (pushW w v s).Keeps rs s := by
  cases w
  · exact push8_keeps _ s
  · exact push16_keeps v s

theorem pull8_keeps (s : State) : (pull8 s).Keeps rs s := by
  cases h : pull8 s with
  | ok b t => exact (keeps_moveS s 1).trans (keeps_onlyDraws (pull8_onlyDraws h))
  | stop r => trivial

theorem pull16_keeps (s : State) : (pull16 s).Keeps rs s :=
  (pull8_keeps s).bind fun _ u _ => (pull8_keeps u).bind fun _ v _ => Keeps.refl v

theorem pullW_keeps (w : Width) (s : State) : (pullW w s).Keeps rs s := by
  cases w
  · exact (pull8_keeps s).bind fun _ u _ => Keeps.refl u
  · exact pull16_keeps s

theorem pull8_wx {s t : State} {b : Byte} (h : pull8 s = .ok b t) : t.wx = s.wx :=
  (pull8_onlyDraws h).wx.trans (s.wx_moveS 1)

theorem pullW_wx {w : Width} {s t : State} {v : Word} (h : pullW w s = .ok v t) : t.wx = s.wx := by
  cases w
  · obtain ⟨_, _, h1, h⟩ := Access.bind_eq_ok h
    cases h; exact pull8_wx h1
  · obtain ⟨_, _, h1, h⟩ := Access.bind_eq_ok h
    obtain ⟨_, _, h2, h⟩ := Access.bind_eq_ok h
    cases h; exact (pull8_wx h2).trans (pull8_wx h1)

/-! ## The shapes of the data instructions -/

/-- `hw`: an index register is written at the width in force before the operand is read, and reading leaves the width. -/
theorem withOperand_keeps (src : Source) (w : Width) {effect : Word → State → State} (s : State)
    (he : ∀ m u, u.wx = s.wx → Keeps rs u (effect m u)) : KeepsResult rs s (withOperand src w effect s) :=
  (operand_keeps src w s).andThen fun m u h => (he m u (operand_onlyDraws h).wx).trans (keeps_advance _ _)

theorem storeTo_keeps (md : Mode) (w : Width) (v : Word) (s : State) : KeepsResult rs s (storeTo md w v s) :=
  (effAddr_keeps md s).andThen fun _ u _ => (store_keeps w _ _ v u).andThen fun _ t _ => keeps_advance t _

theorem modify_keeps (pl : Place) (w : Width) {result : Word → Word} {flags : Word → State → State} (s : State)
    (hf : ∀ v u, Keeps rs u (flags v u)) : KeepsResult rs s (modify pl w result flags s) := by
  cases pl with
  | acc => exact ((hf _ s).trans (keeps_accWrite _ w _)).trans (keeps_advance _ _)
  | mem md =>
    exact (effAddr_keeps md s).andThen fun _ u _ => (load_keeps w _ _ u).andThen fun v t _ =>
      (store_keeps w _ _ _ t).andThen fun _ q _ => (hf v q).trans (keeps_advance _ _)

/-! ## The ends of the data instructions -/

theorem keeps_shiftFlags (s : State) (w : Width) (r : Word) (out : Bool) : Keeps rs s (s.shiftFlags w r out) :=
  (keeps_setFlag s _ (by decide) (by decide)).trans (keeps_setNZ _ w _)

theorem keeps_compareFlags (s : State) (w : Width) (a m : Word) : Keeps rs s (s.compareFlags w a m) :=
  (keeps_setFlag s _ (by decide) (by decide)).trans (keeps_setNZ _ w _)

theorem keeps_testFlag (s : State) (a m : Word) : Keeps rs s (s.testFlag a m) :=
  keeps_setFlag s _ (by decide) (by decide)

theorem keeps_bitFlags (s : State) (w : Width) (a m : Word) : Keeps rs s (s.bitFlags w a m) :=
  ((keeps_setFlag s _ (by decide) (by decide)).trans (keeps_setFlag _ _ (by decide) (by decide))).trans (keeps_testFlag _ a m)

theorem keeps_decimalResult (s : State) (w : Width) (r : Word) (carry : Bool) : Keeps rs s (s.decimalResult w r carry) := by
  have h := ((keeps_accWrite (rs := rs) s w r).trans (keeps_setFlag _ (f := .c) carry (by decide) (by decide))).trans
    (keeps_drawFlag _ (f := .v) (by decide) (by decide))
  unfold State.decimalResult
  dsimp only
  split
  · exact (h.trans (keeps_drawFlag _ (by decide) (by decide))).trans (keeps_drawFlag _ (by decide) (by decide))
  · exact h.trans (keeps_setNZ _ w r)

theorem keeps_decimalInvalid (s : State) (w : Width) : Keeps rs s (s.decimalInvalid w) :=
  (((((keeps_accWrite s w _).trans (keeps_drawn _)).trans (keeps_drawFlag _ (by decide) (by decide))).trans
    (keeps_drawFlag _ (by decide) (by decide))).trans (keeps_drawFlag _ (by decide) (by decide))).trans
    (keeps_drawFlag _ (by decide) (by decide))

/-- The end of a binary ADC or SBC: c, v, the accumulator, n and z. -/
theorem keeps_binaryResult (s : State) (w : Width) (r : Word) (c v : Bool) :
    Keeps rs s ((((s.setFlag .c c).setFlag .v v).accWrite w r).setNZ w r) :=
  (((keeps_setFlag s c (by decide) (by decide)).trans (keeps_setFlag _ v (by decide) (by decide))).trans
    (keeps_accWrite _ w r)).trans (keeps_setNZ _ w r)

theorem keeps_adc (s : State) (w : Width) (m : Word) : Keeps rs s (s.adc w m) := by
  unfold State.adc
  dsimp only
  split
  · split
    · exact keeps_decimalResult s w _ _
    · exact keeps_decimalInvalid s w
  · exact keeps_binaryResult s w _ _ _

theorem keeps_sbc (s : State) (w : Width) (m : Word) : Keeps rs s (s.sbc w m) := by
  unfold State.sbc
  dsimp only
  split
  · split
    · exact keeps_decimalResult s w _ _
    · exact keeps_decimalInvalid s w
  · exact keeps_binaryResult s w _ _ _

theorem keeps_accWrite_setNZ (s : State) (w w' : Width) (v v' : Word) : Keeps rs s ((s.accWrite w v).setNZ w' v') :=
  (keeps_accWrite s w v).trans (keeps_setNZ _ w' v')

theorem keeps_idxWrite_setNZ {s : State} {w : Width} (hw : w = s.wx) (r : IdxReg) (v : Word) :
    Keeps rs s ((s.idxWrite r w v).setNZ w v) :=
  (keeps_idxWrite hw r v).trans (keeps_setNZ _ w v)

theorem keeps_blockMoveRegs (hr : .dbr ∈ rs) (s : State) (delta : Word) (dst : Byte) :
    Keeps rs s (s.blockMoveRegs delta dst) := by
  have h := (((keeps_idxWrite (rs := rs) (s := s) rfl .x (s.x + delta)).trans
    (keeps_idxWrite (State.wx_idxWrite ..).symm .y (s.y + delta))).trans (keeps_c _ (s.c - 1))).trans (keeps_dbr hr _ dst)
  unfold State.blockMoveRegs
  dsimp only
  split
  · exact h.trans (keeps_advance _ 3)
  · exact h

/-- Interrupt entry changes PBR on V65816 only (10_state.md R26). -/
theorem keeps_enterFlags {s : State} (hr : s.is816 = true → .pbr ∈ rs) : Keeps rs s s.enterFlags := by
  have hi : Keeps rs s (s.setFlag .i true) := keeps_setFlag s true (by decide) (by decide)
  have hd : Keeps rs s (if s.cfg.variant = .v6502 then s.setFlag .i true else (s.setFlag .i true).setFlag .d false) := by
    split
    · exact hi
    · exact hi.trans (keeps_setFlag _ false (by decide) (by decide))
  unfold State.enterFlags
  dsimp only
  split
  · next h8 => exact hd.trans (keeps_pbr (hr h8) _ 0)
  · exact hd

/-! ## The shared meanings -/

theorem opAdc_keeps (src : Source) (s : State) : KeepsResult rs s (opAdc src s) :=
  withOperand_keeps src s.wm s fun m u _ => keeps_adc u s.wm m

theorem opSbc_keeps (src : Source) (s : State) : KeepsResult rs s (opSbc src s) :=
  withOperand_keeps src s.wm s fun m u _ => keeps_sbc u s.wm m

theorem logical_keeps (f : Word → Word → Word) (src : Source) (s : State) : KeepsResult rs s (logical f src s) :=
  withOperand_keeps src s.wm s fun _ u _ => keeps_accWrite_setNZ u s.wm _ _ _

theorem opAnd_keeps (src : Source) (s : State) : KeepsResult rs s (opAnd src s) := logical_keeps _ src s

theorem opEor_keeps (src : Source) (s : State) : KeepsResult rs s (opEor src s) := logical_keeps _ src s

theorem opOra_keeps (src : Source) (s : State) : KeepsResult rs s (opOra src s) := logical_keeps _ src s

theorem opBit_keeps (md : Mode) (s : State) : KeepsResult rs s (opBit md s) :=
  withOperand_keeps (.mem md) s.wm s fun m u _ => keeps_bitFlags u s.wm _ m

theorem opBitImm_keeps (k : Word) (s : State) : KeepsResult rs s (opBitImm k s) :=
  withOperand_keeps (.imm k) s.wm s fun m u _ => keeps_testFlag u _ m

theorem opCmp_keeps (src : Source) (s : State) : KeepsResult rs s (opCmp src s) :=
  withOperand_keeps src s.wm s fun m u _ => keeps_compareFlags u s.wm _ m

theorem opCmpIdx_keeps (r : IdxReg) (src : Source) (s : State) : KeepsResult rs s (opCmpIdx r src s) :=
  withOperand_keeps src s.wx s fun m u _ => keeps_compareFlags u s.wx _ m

theorem opLda_keeps (src : Source) (s : State) : KeepsResult rs s (opLda src s) :=
  withOperand_keeps src s.wm s fun m u _ => keeps_accWrite_setNZ u s.wm _ m m

theorem opLdIdx_keeps (r : IdxReg) (src : Source) (s : State) : KeepsResult rs s (opLdIdx r src s) :=
  withOperand_keeps src s.wx s fun m _ hw => keeps_idxWrite_setNZ hw.symm r m

theorem opInc_keeps (pl : Place) (s : State) : KeepsResult rs s (opInc pl s) :=
  modify_keeps pl s.wm s fun _ u => keeps_setNZ u s.wm _

theorem opDec_keeps (pl : Place) (s : State) : KeepsResult rs s (opDec pl s) :=
  modify_keeps pl s.wm s fun _ u => keeps_setNZ u s.wm _

theorem opAsl_keeps (pl : Place) (s : State) : KeepsResult rs s (opAsl pl s) :=
  modify_keeps pl s.wm s fun _ u => keeps_shiftFlags u s.wm _ _

theorem opLsr_keeps (pl : Place) (s : State) : KeepsResult rs s (opLsr pl s) :=
  modify_keeps pl s.wm s fun _ u => keeps_shiftFlags u s.wm _ _

theorem opRol_keeps (pl : Place) (s : State) : KeepsResult rs s (opRol pl s) :=
  modify_keeps pl s.wm s fun _ u => keeps_shiftFlags u s.wm _ _

theorem opRor_keeps (pl : Place) (s : State) : KeepsResult rs s (opRor pl s) :=
  modify_keeps pl s.wm s fun _ u => keeps_shiftFlags u s.wm _ _

theorem opTrb_keeps (md : Mode) (s : State) : KeepsResult rs s (opTrb md s) :=
  modify_keeps (.mem md) s.wm s fun m u => keeps_testFlag u _ m

theorem opTsb_keeps (md : Mode) (s : State) : KeepsResult rs s (opTsb md s) :=
  modify_keeps (.mem md) s.wm s fun m u => keeps_testFlag u _ m

theorem opIncIdx_keeps (r : IdxReg) (s : State) : KeepsResult rs s (opIncIdx r s) :=
  (keeps_idxWrite_setNZ rfl r _).trans (keeps_advance _ _)

theorem opDecIdx_keeps (r : IdxReg) (s : State) : KeepsResult rs s (opDecIdx r s) :=
  (keeps_idxWrite_setNZ rfl r _).trans (keeps_advance _ _)

theorem toIdx_keeps (r : IdxReg) (v : Word) (s : State) : KeepsResult rs s (toIdx r v s) :=
  (keeps_idxWrite_setNZ rfl r v).trans (keeps_advance _ _)

theorem toAcc_keeps (v : Word) (s : State) : KeepsResult rs s (toAcc v s) :=
  (keeps_accWrite_setNZ s s.wm s.wm v v).trans (keeps_advance _ _)

theorem toS_keeps (v : Word) (s : State) : KeepsResult rs s (toS v s) :=
  Keeps.trans (keeps_sp fun he => by rw [he]; exact highByte_wordOf _ _) (keeps_advance _ _)

theorem opFlag_keeps {f : Flag} (b : Bool) (s : State) (hm : f ≠ .m) (hx : f ≠ .x) : KeepsResult rs s (opFlag f b s) :=
  (keeps_setFlag s b hm hx).trans (keeps_advance _ _)

/-- The mask that REP and SEP take in emulation mode has bits 5 and 4 clear. -/
theorem getFlag_mask (k : Byte) {f : Flag} (hf : f = .m ∨ f = .x) : getFlag (k &&& 0xCF) f = false := by
  rcases hf with rfl | rfl <;> simp [getFlag, Flag.bit]

theorem getFlag_or (p k : Byte) (f : Flag) : getFlag (p ||| k) f = (getFlag p f || getFlag k f) := BitVec.getLsbD_or

theorem getFlag_and_not (p k : Byte) (f : Flag) : getFlag (p &&& ~~~k) f = (getFlag p f && !getFlag k f) := by
  have := f.bit_lt
  simp [getFlag, this]

/-- REP leaves m and x in emulation mode, and sets no flag. -/
theorem opRep_keeps (k : Byte) (s : State) : KeepsResult rs s (opRep k s) := by
  refine Keeps.trans ?_ (keeps_advance _ 2)
  by_cases he : s.emulation = true
  · rw [if_pos he]
    exact keeps_p (fun _ => by rw [getFlag_and_not, getFlag_mask k (.inl rfl), Bool.not_false, Bool.and_true]; rfl)
      fun _ => by rw [getFlag_and_not, getFlag_mask k (.inr rfl), Bool.not_false, Bool.and_true]; rfl
  · rw [if_neg he]
    rw [Bool.not_eq_true] at he
    exact keeps_p_native he fun h => by rw [getFlag_and_not, Bool.and_eq_true] at h; exact h.1

/-- SEP leaves m and x in emulation mode, and in native mode setting x clears the high bytes of X and Y. -/
theorem opSep_keeps (k : Byte) (s : State) : KeepsResult rs s (opSep k s) := by
  unfold opSep
  split
  · exact Keeps.trans (keeps_p (fun _ => by rw [getFlag_or, getFlag_mask k (.inl rfl), Bool.or_false]; rfl)
      fun _ => by rw [getFlag_or, getFlag_mask k (.inr rfl), Bool.or_false]; rfl) (keeps_advance _ 2)
  · next he =>
    rw [Bool.not_eq_true] at he
    split
    · exact (keeps_p_clearIdxHigh he _).trans (keeps_advance _ 2)
    · next hx =>
      exact Keeps.trans (keeps_p_native he fun h => by simpa [getFlag_or, hx, State.flag] using h) (keeps_advance _ 2)

theorem branch_keeps (taken : Bool) (rel : Byte) (s : State) : KeepsResult rs s (branch taken rel s) := by
  cases taken
  · exact keeps_advance s 2
  · exact keeps_pc s _

theorem pushing_keeps {x : Access Unit} {s : State} (n : Nat) (hx : x.Keeps rs s) : KeepsResult rs s (pushing x n) :=
  hx.andThen fun _ u _ => keeps_advance u n

theorem pullIdx_keeps (r : IdxReg) (s : State) : KeepsResult rs s (pullIdx r s) :=
  (pullW_keeps s.wx s).andThen fun v _ h => (keeps_idxWrite_setNZ (pullW_wx h).symm r v).trans (keeps_advance _ _)

theorem enter_keeps (k : IntKind) (ret : Word) {s : State} (hr : s.is816 = true → .pbr ∈ rs) :
    KeepsResult rs s (enter k ret s) := by
  have hf : (pushFrame k ret s).Keeps rs s := by
    refine Access.Keeps.bind (x := if s.emulation then Access.ok () s else push8 s.pbr s) ?_ fun _ u _ =>
      (push16_keeps ret u).bind fun _ t _ => push8_keeps _ t
    split
    · exact Keeps.refl s
    · exact push8_keeps _ s
  refine hf.andThen fun _ u hu => ?_
  have h8 : u.is816 = s.is816 := State.is816_congr ((pushFrame_sound k ret rfl).cfg_of_ok hu)
  exact .after (keeps_enterFlags (h8 ▸ hr)) ((read16_keeps _ .lin _).andThen fun _ t _ => keeps_pc t _)

theorem returnFromInterrupt_keeps {s : State} (hr : s.is816 = true → .pbr ∈ rs) :
    KeepsResult rs s (returnFromInterrupt s) :=
  (pull8_keeps s).andThen fun v u _ => .after (keeps_loadP u v) <| (pull16_keeps _).andThen fun target t _ => by
    split
    · exact keeps_pc t target
    · next he =>
      have h8 : s.is816 = true := is816_of_native (by simpa using he)
      exact (pull8_keeps t).andThen fun bank q _ => (keeps_pc q target).trans (keeps_pbr (hr h8) _ bank)

theorem blockMove_keeps (hr : .dbr ∈ rs) (delta : Word) (o1 o2 : Byte) (s : State) :
    KeepsResult rs s (blockMove delta o1 o2 s) :=
  (read8_keeps _ s).andThen fun v u _ => (write8_keeps _ v u).andThen fun _ t _ => keeps_blockMoveRegs hr t delta _

theorem execPla_keeps (s : State) : KeepsResult rs s (execPla s) :=
  (pullW_keeps s.wm s).andThen fun v u _ => (keeps_accWrite_setNZ u s.wm _ v v).trans (keeps_advance _ 1)

theorem execPlb_keeps (hr : .dbr ∈ rs) (s : State) : KeepsResult rs s (execPlb s) :=
  (pull8_keeps s).andThen fun v u _ => ((keeps_dbr hr u v).trans (keeps_setNZ _ _ _)).trans (keeps_advance _ 1)

theorem execPld_keeps (hr : .d ∈ rs) (s : State) : KeepsResult rs s (execPld s) :=
  (pull16_keeps s).andThen fun v u _ => ((keeps_d hr u v).trans (keeps_setNZ _ _ _)).trans (keeps_advance _ 1)

theorem execPlp_keeps (s : State) : KeepsResult rs s (execPlp s) :=
  (pull8_keeps s).andThen fun v u _ => (keeps_loadP u v).trans (keeps_advance _ 1)

theorem execPei_keeps (o1 : Byte) (s : State) : KeepsResult rs s (execPei o1 s) :=
  (read16_keeps _ _ s).andThen fun v u _ => pushing_keeps 2 (push16_keeps v u)

theorem indexedPointer_keeps (s : State) (a : Word) (t : State) : (s.indexedPointer a t).Keeps rs t := read16_keeps _ _ t

theorem execJmpAbsInd_keeps (a : Word) (s : State) : KeepsResult rs s (execJmpAbsInd a s) :=
  (read16_keeps _ _ s).andThen fun v u _ => keeps_pc u v

theorem execJmpAbsXInd_keeps (a : Word) (s : State) : KeepsResult rs s (execJmpAbsXInd a s) :=
  (indexedPointer_keeps s a s).andThen fun v u _ => keeps_pc u v

theorem execJmpAbsIndLong_keeps (hr : .pbr ∈ rs) (a : Word) (s : State) : KeepsResult rs s (execJmpAbsIndLong a s) :=
  (read24_keeps _ _ s).andThen fun v u _ => (keeps_pc u v.offset).trans (keeps_pbr hr _ v.bank)

theorem execJmpLong_keeps (hr : .pbr ∈ rs) (l : Addr) (s : State) : KeepsResult rs s (execJmpLong l s) :=
  (keeps_pc s l.offset).trans (keeps_pbr hr _ l.bank)

theorem execJsrAbs_keeps (a : Word) (s : State) : KeepsResult rs s (execJsrAbs a s) :=
  (push16_keeps _ s).andThen fun _ u _ => keeps_pc u a

theorem execJsrAbsXInd_keeps (a : Word) (s : State) : KeepsResult rs s (execJsrAbsXInd a s) :=
  (push16_keeps _ s).andThen fun _ u _ => (indexedPointer_keeps s a u).andThen fun v t _ => keeps_pc t v

theorem execJsl_keeps (hr : .pbr ∈ rs) (l : Addr) (s : State) : KeepsResult rs s (execJsl l s) :=
  (push8_keeps _ s).andThen fun _ u _ => (push16_keeps _ u).andThen fun _ t _ =>
    (keeps_pc t l.offset).trans (keeps_pbr hr _ l.bank)

theorem execRts_keeps (s : State) : KeepsResult rs s (execRts s) :=
  (pull16_keeps s).andThen fun v u _ => keeps_pc u (v + 1)

theorem execRtl_keeps (hr : .pbr ∈ rs) (s : State) : KeepsResult rs s (execRtl s) :=
  (pull16_keeps s).andThen fun v u _ => (pull8_keeps u).andThen fun bank t _ =>
    (keeps_pc t (v + 1)).trans (keeps_pbr hr _ bank)

theorem execTcd_keeps (hr : .d ∈ rs) (s : State) : KeepsResult rs s (execTcd s) :=
  ((keeps_d hr s s.c).trans (keeps_setNZ _ _ _)).trans (keeps_advance _ 1)

/-- TDC, TSC and XBA: a value to the whole accumulator, then n and z. -/
theorem keeps_c_setNZ (s : State) (v : Word) (w : Width) (v' : Word) :
    Keeps rs s ((({ s with c := v } : State).setNZ w v').advance 1) :=
  ((keeps_c s v).trans (keeps_setNZ _ w v')).trans (keeps_advance _ 1)

theorem execXce_keeps (hr : .e ∈ rs) (s : State) : KeepsResult rs s (execXce s) :=
  (keeps_exchangeCE hr s).trans (keeps_advance _ 1)

/-! ## Every instruction -/

/-- The special registers that an instruction may change; `wide` is V65816. Interrupt entry and RTI leave PBR on the 8-bit
variants. -/
def specialRegs (wide : Bool) : Instr → List Reg
  | .tcd | .pld => [.d]
  | .plb | .mvn _ _ | .mvp _ _ => [.dbr]
  | .jmpLong _ | .jmpAbsIndLong _ | .jsl _ | .rtl => [.pbr]
  | .rti | .brk _ | .cop _ => if wide then [.pbr] else []
  | .xce => [.e]
  | .wai | .stp => [.run]
  | _ => []

theorem pbr_mem_of_wide {wide : Bool} (h : wide = true) : Reg.pbr ∈ if wide then [Reg.pbr] else [] := by simp [h]

theorem eq_pbr_of_mem {wide : Bool} {r : Reg} (h : r ∈ if wide then [Reg.pbr] else []) : r = .pbr := by
  cases wide
  · cases h
  · exact List.mem_singleton.1 h

/-- Every instruction changes at most the working registers and its own special ones, and breaks nothing of the invariant:
each constructor has one of the meanings above. -/
theorem exec_keeps (i : Instr) (s : State) : KeepsResult (specialRegs s.is816 i) s (exec i s) := by
  unfold exec
  cases i with
  | adcDpXInd | adcSr | adcDp | adcDpIndLong | adcImm | adcAbs | adcLong | adcDpIndY | adcDpInd | adcSrIndY | adcDpX |
    adcDpIndLongY | adcAbsY | adcAbsX | adcLongX =>
    exact opAdc_keeps _ s
  | sbcDpXInd | sbcSr | sbcDp | sbcDpIndLong | sbcImm | sbcAbs | sbcLong | sbcDpIndY | sbcDpInd | sbcSrIndY | sbcDpX |
    sbcDpIndLongY | sbcAbsY | sbcAbsX | sbcLongX =>
    exact opSbc_keeps _ s
  | andDpXInd | andSr | andDp | andDpIndLong | andImm | andAbs | andLong | andDpIndY | andDpInd | andSrIndY | andDpX |
    andDpIndLongY | andAbsY | andAbsX | andLongX =>
    exact opAnd_keeps _ s
  | eorDpXInd | eorSr | eorDp | eorDpIndLong | eorImm | eorAbs | eorLong | eorDpIndY | eorDpInd | eorSrIndY | eorDpX |
    eorDpIndLongY | eorAbsY | eorAbsX | eorLongX =>
    exact opEor_keeps _ s
  | oraDpXInd | oraSr | oraDp | oraDpIndLong | oraImm | oraAbs | oraLong | oraDpIndY | oraDpInd | oraSrIndY | oraDpX |
    oraDpIndLongY | oraAbsY | oraAbsX | oraLongX =>
    exact opOra_keeps _ s
  | bitDp | bitAbs | bitDpX | bitAbsX => exact opBit_keeps _ s
  | bitImm => exact opBitImm_keeps _ s
  | cmpDpXInd | cmpSr | cmpDp | cmpDpIndLong | cmpImm | cmpAbs | cmpLong | cmpDpIndY | cmpDpInd | cmpSrIndY | cmpDpX |
    cmpDpIndLongY | cmpAbsY | cmpAbsX | cmpLongX =>
    exact opCmp_keeps _ s
  | cpxImm | cpxDp | cpxAbs | cpyImm | cpyDp | cpyAbs => exact opCmpIdx_keeps _ _ s
  | ldaDpXInd | ldaSr | ldaDp | ldaDpIndLong | ldaImm | ldaAbs | ldaLong | ldaDpIndY | ldaDpInd | ldaSrIndY | ldaDpX |
    ldaDpIndLongY | ldaAbsY | ldaAbsX | ldaLongX =>
    exact opLda_keeps _ s
  | ldxImm | ldxDp | ldxAbs | ldxDpIdx | ldxAbsIdx | ldyImm | ldyDp | ldyAbs | ldyDpX | ldyAbsX => exact opLdIdx_keeps _ _ s
  | staDpXInd | staSr | staDp | staDpIndLong | staAbs | staLong | staDpIndY | staDpInd | staSrIndY | staDpX |
    staDpIndLongY | staAbsY | staAbsX | staLongX | stxDp | stxAbs | stxDpY | styDp | styAbs | styDpX | stzDp |
    stzDpX | stzAbs | stzAbsX =>
    exact storeTo_keeps _ _ _ s
  | incA | incDp | incAbs | incDpX | incAbsX => exact opInc_keeps _ s
  | decA | decDp | decAbs | decDpX | decAbsX => exact opDec_keeps _ s
  | aslDp | aslA | aslAbs | aslDpX | aslAbsX => exact opAsl_keeps _ s
  | lsrDp | lsrA | lsrAbs | lsrDpX | lsrAbsX => exact opLsr_keeps _ s
  | rolDp | rolA | rolAbs | rolDpX | rolAbsX => exact opRol_keeps _ s
  | rorDp | rorA | rorAbs | rorDpX | rorAbsX => exact opRor_keeps _ s
  | trbDp | trbAbs => exact opTrb_keeps _ s
  | tsbDp | tsbAbs => exact opTsb_keeps _ s
  | iny | inx => exact opIncIdx_keeps _ s
  | dey | dex => exact opDecIdx_keeps _ s
  | txy | tay | tax | tsx | tyx => exact toIdx_keeps _ _ s
  | txa | tya => exact toAcc_keeps _ s
  | tcs | txs => exact toS_keeps _ s
  | tdc | tsc | xba => exact keeps_c_setNZ s _ _ _
  | tcd => exact execTcd_keeps (List.mem_singleton_self _) s
  | clc | sec | cli | sei | clv | cld | sed => exact opFlag_keeps _ s (by decide) (by decide)
  | rep => exact opRep_keeps _ s
  | sep => exact opSep_keeps _ s
  | xce => exact execXce_keeps (List.mem_singleton_self _) s
  | nop | wdm => exact keeps_advance s _
  | wai | stp => exact (keeps_run (List.mem_singleton_self _) s _).trans (keeps_advance _ 1)
  | bpl | bmi | bvc | bvs | bra | bcc | bcs | bne | beq => exact branch_keeps _ _ s
  | brl | jmpAbs => exact keeps_pc s _
  | php | phk | phb => exact pushing_keeps _ (push8_keeps _ s)
  | phd | per | pea => exact pushing_keeps _ (push16_keeps _ s)
  | pha | phy | phx => exact pushing_keeps _ (pushW_keeps _ _ s)
  | ply | plx => exact pullIdx_keeps _ s
  | pla => exact execPla_keeps s
  | plb => exact execPlb_keeps (List.mem_singleton_self _) s
  | pld => exact execPld_keeps (List.mem_singleton_self _) s
  | plp => exact execPlp_keeps s
  | pei => exact execPei_keeps _ s
  | jmpAbsInd => exact execJmpAbsInd_keeps _ s
  | jmpAbsXInd => exact execJmpAbsXInd_keeps _ s
  | jmpAbsIndLong => exact execJmpAbsIndLong_keeps (List.mem_singleton_self _) _ s
  | jmpLong => exact execJmpLong_keeps (List.mem_singleton_self _) _ s
  | jsrAbs => exact execJsrAbs_keeps _ s
  | jsrAbsXInd => exact execJsrAbsXInd_keeps _ s
  | jsl => exact execJsl_keeps (List.mem_singleton_self _) _ s
  | rts => exact execRts_keeps s
  | rtl => exact execRtl_keeps (List.mem_singleton_self _) s
  | mvp | mvn => exact blockMove_keeps (List.mem_singleton_self _) _ _ _ s
  | brk | cop => exact enter_keeps _ _ pbr_mem_of_wide
  | rti => exact returnFromInterrupt_keeps pbr_mem_of_wide

/-- The opcodes of the instructions that may change a special register (10_state.md R24 to R26, R38, R41). -/
def writers : Reg → List Byte
  | .d => [0x5B, 0x2B]
  | .dbr => [0xAB, 0x54, 0x44]
  | .pbr => [0x5C, 0xDC, 0x22, 0x6B, 0x40, 0x00, 0x02]
  | .e => [0xFB]
  | .run => [0xCB, 0xDB]
  | _ => []

theorem opcode_mem_writers {wide : Bool} {i : Instr} {r : Reg} (h : r ∈ specialRegs wide i) : i.opcode ∈ writers r := by
  cases i with
  | tcd | pld | plb | mvn | mvp | jmpLong | jmpAbsIndLong | jsl | rtl | xce | wai | stp =>
    obtain rfl := List.mem_singleton.1 h
    simp [Instr.opcode, writers]
  | rti | brk | cop =>
    obtain rfl := eq_pbr_of_mem h
    simp [Instr.opcode, writers]
  | _ => cases h

/-- A register that an instruction has changed: a working one, or one whose writers it belongs to. -/
theorem exec_same {i : Instr} {s t : State} (h : exec i s = .next t) {r : Reg} (hw : r ∉ workRegs)
    (hr : i.opcode ∉ writers r) : r.Same s t := by
  have hk := exec_keeps i s
  rw [h] at hk
  exact hk.regs r fun hm => (List.mem_append.1 hm).elim hw fun hs => hr (opcode_mem_writers hs)

end Sys2Proof.Machine

/-- Settles O14: a special register changes only under one of its writers. -/
theorem specialRegisterWriters : Obligations.SpecialRegisterWriters := by
  intro i s t h
  have key : ∀ r, r ∉ Sys2Proof.Machine.workRegs → ¬ r.Same s t → i.opcode ∈ Sys2Proof.Machine.writers r :=
    fun r hw hn => by_contra fun hr => hn (Sys2Proof.Machine.exec_same h hw hr)
  exact ⟨key .d (by decide), key .dbr (by decide), key .pbr (by decide), key .e (by decide), key .run (by decide)⟩

namespace Sys2Proof.Machine

/-! ## The 8-bit variants have none of the special writers -/

/-- The row builds an instruction that is on the variants that the row is on. -/
def RowAvailable (r : Row) : Prop := ∀ wm wx o1 o2 o3, (r.build.apply wm wx o1 o2 o3).availability = r.avail

/-- Each of the 256 rows of the map computes to its instruction. -/
theorem rowAvailable_of_mem {r : Row} (h : r ∈ opcodeMap) : RowAvailable r := by
  revert r
  rw [← List.forall_iff_forall_mem]
  repeat' apply And.intro
  all_goals exact fun _ _ _ _ _ => rfl

theorem opcodeRow?_eq_some {v : Variant} {op : Byte} {r : Row} (h : opcodeRow? v op = some r) :
    r ∈ opcodeMap ∧ r.avail.on v = true := by
  unfold opcodeRow? at h
  split at h
  · next hr =>
    split at h
    · next ha => cases h; exact ⟨List.mem_of_getElem? hr, ha⟩
    · cases h
  · cases h

/-- A fetch gives an instruction that the variant has (30_encoding.md R97). -/
theorem fetchInstr_available {s t : State} {i : Instr} (h : fetchInstr s = .ok i t) :
    i.availability.on s.cfg.variant = true := by
  obtain ⟨_, op, r, o1, o2, o3, hr, rfl⟩ := fetchInstr_eq_ok h
  obtain ⟨hm, ha⟩ := opcodeRow?_eq_some hr
  rw [rowAvailable_of_mem hm]
  exact ha

/-- No instruction of an 8-bit variant has a special register. -/
theorem specialRegs_of_available {v : Variant} (hv : v ≠ .v65816) {i : Instr} (h : i.availability.on v = true) :
    specialRegs false i = [] := by
  cases i with
  | tcd | pld | plb | mvn | mvp | jmpLong | jmpAbsIndLong | jsl | rtl | xce | wai | stp =>
    cases v
    · cases h
    · cases h
    · exact absurd rfl hv
  | _ => rfl

theorem variant_of_is816 {s : State} (h : s.is816 = false) : s.cfg.variant ≠ .v65816 := by
  simpa [State.is816] using h

/-! ## The invariant -/

theorem inv_of_onlyDraws {s t : State} (h : OnlyDraws s t) (hs : s.inv = true) : t.inv = true := by
  rw [h]; exact hs

/-- The launch kept, and on the 8-bit variants no special register changed. -/
theorem Keeps.inv {s t : State} (h : Keeps rs s t) (hc : t.cfg = s.cfg) (h8 : s.is816 = false → rs = [])
    (hs : s.inv = true) : t.inv = true := by
  obtain ⟨htidy, hfixed⟩ := (inv_iff s).1 hs
  refine (inv_iff t).2 ⟨h.tidy htidy, (variantFixed_iff t).2 fun ht => ?_⟩
  have hs8 : s.is816 = false := (State.is816_congr hc).symm.trans ht
  obtain ⟨he, hd, hdbr, hpbr, hrun⟩ := (variantFixed_iff s).1 hfixed hs8
  have hr := h.regs
  rw [h8 hs8] at hr
  have same : ∀ r, r ∉ workRegs → r.Same s t := fun r hw => hr r (by simpa using hw)
  exact ⟨(same .e (by decide)).trans he, (same .d (by decide)).trans hd, (same .dbr (by decide)).trans hdbr,
    (same .pbr (by decide)).trans hpbr, (same .run (by decide)).trans hrun⟩

/-- An instruction of the variant keeps the invariant. -/
theorem exec_inv {i : Instr} {s t : State} (hi : i.availability.on s.cfg.variant = true) (h : exec i s = .next t)
    (hs : s.inv = true) : t.inv = true := by
  have hk := exec_keeps i s
  have hc := exec_sound i s
  rw [h] at hk hc
  exact hk.inv hc (fun h8 => by rw [h8]; exact specialRegs_of_available (variant_of_is816 h8) hi) hs

theorem enter_inv {k : IntKind} {ret : Word} {s t : State} (h : enter k ret s = .next t) (hs : s.inv = true) :
    t.inv = true := by
  have hk := enter_keeps (rs := if s.is816 then [.pbr] else []) k ret pbr_mem_of_wide
  have hc := enter_sound k ret (s := s) rfl
  rw [h] at hk hc
  exact hk.inv hc (fun h8 => by rw [h8]; rfl) hs

theorem drawFlag_inv {s : State} {f : Flag} (hm : f ≠ .m) (hx : f ≠ .x) (hs : s.inv = true) :
    (s.drawFlag f).inv = true := (keeps_drawFlag (rs := []) s hm hx).inv rfl (fun _ => rfl) hs

/-- A tidy state that holds the values which 10_state.md R39 fixes on the 8-bit variants has the invariant on any variant. -/
theorem inv_of_tidy {s : State} (h : Tidy s) (he : s.e = true) (hd : s.d = 0) (hdbr : s.dbr = 0) (hpbr : s.pbr = 0)
    (hrun : s.run = .running) : s.inv = true :=
  (inv_iff s).2 ⟨h, (variantFixed_iff s).2 fun _ => ⟨he, hd, hdbr, hpbr, hrun⟩⟩

/-- The status byte after reset: m, x and i are 1, d is 0 (10_state.md R43). -/
theorem resetP_flags :
    getFlag 0x34 .m = true ∧ getFlag 0x34 .x = true ∧ getFlag 0x34 .i = true ∧ getFlag 0x34 .d = false := by
  decide

theorem highByte_zero : highByte 0x0000 = 0 := by decide

theorem highByte_0100 : highByte 0x0100 = 0x01 := by decide

/-- RESET sets everything that the invariant speaks of but memory; the flags it draws are not m and x. -/
theorem resetRegisters_inv {s : State} (hm : s.mem.wf = true) : s.resetRegisters.inv = true := by
  obtain ⟨hfm, hfx, _, _⟩ := resetP_flags
  have hdraws : ∀ t : State, t.inv = true →
      (if s.cfg.variant = .v6502 then ((((t.drawFlag .n).drawFlag .v).drawFlag .z).drawFlag .c).drawFlag .d
        else (((t.drawFlag .n).drawFlag .v).drawFlag .z).drawFlag .c).inv = true := by
    intro t ht
    have h4 : ((((t.drawFlag .n).drawFlag .v).drawFlag .z).drawFlag .c).inv = true :=
      drawFlag_inv (by decide) (by decide) <| drawFlag_inv (by decide) (by decide) <|
        drawFlag_inv (by decide) (by decide) <| drawFlag_inv (by decide) (by decide) ht
    split
    · exact drawFlag_inv (by decide) (by decide) h4
    · exact h4
  exact hdraws _ (inv_of_tidy (.of_emulation (highByte_wordOf _ _) hfm hfx ⟨highByte_wordOf _ _, highByte_wordOf _ _⟩ hm)
    rfl rfl rfl rfl rfl)

theorem resetEvent_inv {s t : State} (h : resetEvent s = .next t) (hm : s.mem.wf = true) : t.inv = true := by
  obtain ⟨_, _, h1, h2⟩ := Access.andThen_eq_next h
  have hr := inv_of_onlyDraws (read16_onlyDraws h1) (resetRegisters_inv hm)
  cases h2
  exact hr

/-! ## One step -/

/-- What carries a predicate over a step: the updates of the boundary, RESET, interrupt entry, and the instruction that a
fetch gives. -/
structure StepClosed (Q : State → Prop) : Prop where
  latch : ∀ s, Q s → Q s.latchInput
  pin : ∀ s, Q s → Q (s.setFlag .v true)
  wake : ∀ s, Q s → Q { s with run := .running }
  ackNmi : ∀ s, Q s → Q { s with nmiPending := false }
  reset : ∀ s t, Q s → resetEvent s = .next t → Q t
  enter : ∀ k ret s t, Q s → enter k ret s = .next t → Q t
  exec : ∀ i s u t, Q s → fetchInstr s = .ok i u → exec i u = .next t → Q t

theorem StepClosed.executeNext {Q : State → Prop} (hQ : StepClosed Q) {s t : State} (hs : Q s)
    (h : executeNext s = .next t) : Q t := by
  obtain ⟨i, u, h1, h2⟩ := Access.andThen_eq_next h
  exact hQ.exec i s u t hs h1 h2

theorem StepClosed.takeNmi {Q : State → Prop} (hQ : StepClosed Q) {s t : State} (hs : Q s) (h : takeNmi s = .next t) :
    Q t := hQ.enter _ _ _ t (hQ.ackNmi s hs) h

theorem StepClosed.boundaryRunning {Q : State → Prop} (hQ : StepClosed Q) {inp : EnvInput} {s t : State} (hs : Q s)
    (h : boundaryRunning inp s = .next t) : Q t := by
  have hpin : Q (if inp.overflowPin then s.setFlag .v true else s) := by
    split
    · exact hQ.pin s hs
    · exact hs
  unfold Machine.boundaryRunning at h
  split at h
  · exact hQ.reset s t hs h
  split at h
  · cases h
  dsimp only at h
  generalize (if inp.overflowPin then s.setFlag .v true else s) = u at h hpin
  split at h
  · exact hQ.takeNmi hpin h
  split at h
  · exact hQ.enter _ _ _ t hpin h
  · exact hQ.executeNext hpin h

theorem StepClosed.boundaryWaiting {Q : State → Prop} (hQ : StepClosed Q) {inp : EnvInput} {s t : State} (hs : Q s)
    (h : boundaryWaiting inp s = .next t) : Q t := by
  have hwake := hQ.wake s hs
  unfold Machine.boundaryWaiting at h
  split at h
  · exact hQ.reset s t hs h
  split at h
  · cases h
  split at h
  · exact hQ.takeNmi hwake h
  split at h
  · split at h
    · cases h; exact hwake
    · exact hQ.enter _ _ _ t hwake h
  · cases h; exact hs

theorem StepClosed.boundaryStopped {Q : State → Prop} (hQ : StepClosed Q) {inp : EnvInput} {s t : State} (hs : Q s)
    (h : boundaryStopped inp s = .next t) : Q t := by
  unfold Machine.boundaryStopped at h
  split at h
  · exact hQ.reset s t hs h
  · cases h; exact hs

/-- A predicate that is closed in this sense holds after every step. -/
theorem StepClosed.step {Q : State → Prop} (hQ : StepClosed Q) {s t : State} (hs : Q s) (h : step s = .next t) : Q t := by
  have hl := hQ.latch s hs
  unfold Machine.step boundary at h
  split at h
  · exact hQ.boundaryRunning hl h
  · exact hQ.boundaryWaiting hl h
  · exact hQ.boundaryStopped hl h

theorem inv_stepClosed : StepClosed (fun s => s.inv = true) where
  latch := fun _ hs => hs
  pin := fun s hs => (keeps_setFlag (rs := []) s true (by decide) (by decide)).inv rfl (fun _ => rfl) hs
  wake := fun s hs => by
    obtain ⟨htidy, hfixed⟩ := (inv_iff s).1 hs
    have hk := keeps_run (rs := [.run]) (List.mem_singleton_self _) s .running
    refine (inv_iff _).2 ⟨hk.tidy htidy, (variantFixed_iff _).2 fun h8 => ?_⟩
    obtain ⟨he, hd, hdbr, hpbr, _⟩ := (variantFixed_iff s).1 hfixed h8
    exact ⟨he, hd, hdbr, hpbr, rfl⟩
  ackNmi := fun _ hs => hs
  reset := fun s _ hs h => resetEvent_inv h ((inv_iff s).1 hs).1.mem
  enter := fun _ _ _ _ hs h => enter_inv h hs
  exec := fun i s u _ hs hf h => by
    have hu := (fetchInstr_eq_ok hf).1
    have ha := fetchInstr_available hf
    rw [← hu.cfg] at ha
    exact exec_inv ha h (inv_of_onlyDraws hu hs)

theorem cfg_stepClosed (cfg : Config) : StepClosed (fun s => s.cfg = cfg) where
  latch := fun _ hs => hs
  pin := fun _ hs => hs
  wake := fun _ hs => hs
  ackNmi := fun _ hs => hs
  reset := fun _ _ hs h => by have hr := resetEvent_sound hs; rw [h] at hr; exact hr
  enter := fun k ret _ _ hs h => by have hr := enter_sound k ret hs; rw [h] at hr; exact hr
  exec := fun i s u t hs hf h => by
    have hr := exec_sound i u
    rw [h] at hr
    exact hr.trans ((fetchInstr_eq_ok hf).1.cfg.trans hs)

end Sys2Proof.Machine

/-- Settles O9: the invariant is closed under everything that a step is made of. -/
theorem stepKeepsInvariant : Obligations.StepKeepsInvariant :=
  fun _ _ hs h => Sys2Proof.Machine.inv_stepClosed.step hs h

/-- Settles O11: so is the equality of the launch with a given one. -/
theorem stepKeepsLaunch : Obligations.StepKeepsLaunch :=
  fun s _ h => (Sys2Proof.Machine.cfg_stepClosed s.cfg).step rfl h

namespace Sys2Proof.Machine

/-! ## The reset state -/

theorem resetOn_inv (cfg : Config) : (State.resetOn cfg).inv = true := by
  obtain ⟨hm, hx, _, _⟩ := resetP_flags
  exact inv_of_tidy (.of_emulation highByte_0100 hm hx ⟨highByte_zero, highByte_zero⟩ Memory.wf_nil) rfl rfl rfl rfl rfl

/-- Both bytes of the reset vector are those of the empty memory, so PC is their pair. -/
theorem resetOn_pc (cfg : Config) (a b : Addr) : (State.resetOn cfg).pc = (State.resetOn cfg).pair a b := by
  show (0x0000 : Word) = wordOf Memory.unlisted Memory.unlisted
  decide

end Sys2Proof.Machine

/-- Settles O10: the reset state is in emulation mode with everything that R40 asks of it, and its memory is empty. -/
theorem resetHasInvariant : Obligations.ResetHasInvariant := Sys2Proof.Machine.resetOn_inv

/-- Settles O15: each value of R43 is read off the reset state. -/
theorem resetValues : Obligations.ResetValues := by
  intro cfg
  obtain ⟨hm, hx, hi, hd⟩ := Sys2Proof.Machine.resetP_flags
  have hz := Sys2Proof.Machine.highByte_zero
  exact ⟨Sys2Proof.Machine.resetOn_pc cfg _ _, rfl, rfl, rfl, rfl, hm, hx, hi, fun _ => hd,
    Sys2Proof.Machine.highByte_0100, hz, hz, rfl, rfl⟩
end

section
/-! PROOF. Memory: what an access answers at each kind of address (20_memory.md R68), the three successors as numbers (R60,
R64), and that a load gives back what a store has put into RAM (R61). -/

namespace Sys2Proof.Machine

/-! ## A byte access at each kind of address (20_memory.md R68) -/

theorem read8_of_unmapped {s : State} {a : Addr} (h : kindAt s.cfg a = .unmapped) : read8 a s = .ok (s.draw 8) s.drawn := by
  simp [read8, h]

theorem read8_of_device {s : State} {a : Addr} (h : kindAt s.cfg a = .device) :
    read8 a s = .stop (.deviceAccessSequence a) := by simp [read8, h]

theorem write8_of_ram {s : State} {a : Addr} (b : Byte) (h : kindAt s.cfg a = .ram) :
    write8 a b s = .ok () (s.putCell a b) := by simp [write8, h]

theorem write8_of_rom {s : State} {a : Addr} (b : Byte) (h : kindAt s.cfg a = .rom) : write8 a b s = .ok () s := by
  simp [write8, h]

theorem write8_of_unmapped {s : State} {a : Addr} (b : Byte) (h : kindAt s.cfg a = .unmapped) : write8 a b s = .ok () s := by
  simp [write8, h]

theorem write8_of_device {s : State} {a : Addr} (b : Byte) (h : kindAt s.cfg a = .device) :
    write8 a b s = .stop (.deviceAccessSequence a) := by simp [write8, h]

theorem memBut_putCell (s : State) (a : Addr) (b : Byte) : MemBut [a] s (s.putCell a b) := by
  intro k hk
  rw [State.cell_putCell, if_neg (hk a (List.mem_singleton_self a))]

/-! ## What a write leaves but memory -/

theorem OnlyMem.regsBut {s t : State} (h : OnlyMem s t) (rs : List Reg) : RegsBut rs s t := by
  intro r _
  rw [h]
  cases r <;> rfl

theorem OnlyMem.flagsBut {s t : State} (h : OnlyMem s t) (fs : List Flag) : FlagsBut fs s t := .of_p (by rw [h])

theorem frame_storedState (w : Width) (a : Addr) (wrap : Wrap) (v : Word) (s : State) :
    Frame [] [] (storedBytes w a wrap s) s (storedState w a wrap v s) :=
  have hm := onlyMem_storedState w a wrap v s
  ⟨hm.regsBut [], hm.flagsBut [], memBut_storedState w a wrap v s⟩

/-! ## Successors as numbers (20_memory.md R60, R64) -/

theorem toNat_succ_bank (s : State) (a : Addr) :
    (s.succ a .bank).toNat = a.toNat / 65536 * 65536 + (a.toNat + 1) % 65536 := by
  simp [State.succ]

theorem toNat_succ_page (s : State) (a : Addr) :
    (s.succ a .page).toNat = a.toNat / 256 * 256 + (a.toNat + 1) % 256 := by
  simp only [State.succ, toNat_addrOf, toNat_bank, toNat_wordOf, toNat_highByte, BitVec.toNat_add, toNat_lowByte, toNat_offset]
  have one8 : (1 : Byte).toNat = 1 := rfl
  omega

/-- On the 8-bit variants an address has 16 bits, so the linear successor is the one in the bank. -/
theorem succ_lin (s : State) (a : Addr) : s.succ a .lin = if s.is816 then a + 1 else s.succ a .bank := rfl

theorem toNat_succ_lin (s : State) (a : Addr) :
    (s.succ a .lin).toNat = if s.is816 then (a.toNat + 1) % 2 ^ 24 else a.toNat / 65536 * 65536 + (a.toNat + 1) % 65536 := by
  rw [succ_lin]
  split
  · exact BitVec.toNat_add a 1
  · exact toNat_succ_bank s a

theorem toNat_pair (s : State) (a b : Addr) : (s.pair a b).toNat = (s.cell a).toNat + 256 * (s.cell b).toNat := by
  rw [State.pair, toNat_wordOf]
  omega

/-! ## A load after a store (20_memory.md R61, R64, R68) -/

theorem wordOf_lowByte_zero (v : Word) : wordOf (lowByte v) 0 = trunc .w8 v := by
  apply BitVec.eq_of_toNat_eq
  simp

/-- A load that reads RAM or ROM only gives the bytes that memory holds, the low one first. -/
theorem load_of_backed {w : Width} {a : Addr} {wrap : Wrap} {s : State} (h : ∀ b ∈ storedBytes w a wrap s, Backed s b) :
    load w a wrap s = .ok (wordOf (s.cell a) (if w = .w16 then s.cell (s.succ a wrap) else 0)) s := by
  cases w
  case w8 =>
    have h0 := h a (by simp [storedBytes])
    simp [load, read8_of_backed h0]
  case w16 => exact read16_of_backed (h a (by simp [storedBytes])) (h _ (by simp [storedBytes]))

/-- In RAM a store leaves the bytes of the datum, whichever successor the high one goes to: it is never the place of the
low one. -/
theorem load_storedState {w : Width} {a : Addr} {wrap : Wrap} {s : State} (v : Word)
    (h : ∀ b ∈ storedBytes w a wrap s, kindAt s.cfg b = .ram) :
    load w a wrap (storedState w a wrap v s) = .ok (trunc w v) (storedState w a wrap v s) := by
  have hc := (onlyMem_storedState w a wrap v s).cfg
  have hsucc := State.succ_congr hc a wrap
  obtain ⟨hlow, hhigh⟩ := stored_storedState w a wrap v s
  generalize storedState w a wrap v s = t at hc hsucc hlow hhigh ⊢
  have hbytes : storedBytes w a wrap t = storedBytes w a wrap s := by simp [storedBytes, hsucc]
  have hback : ∀ b ∈ storedBytes w a wrap t, Backed t b := fun b hb => .inl (by rw [hc]; exact h b (hbytes ▸ hb))
  rw [load_of_backed hback, hsucc]
  have hl : t.cell a = lowByte v := hlow.trans (if_pos (h a (by cases w <;> simp [storedBytes])))
  cases w
  case w8 => rw [hl, if_neg (by decide), wordOf_lowByte_zero]
  case w16 =>
    have hh : t.cell (s.succ a wrap) = highByte v := (hhigh rfl).trans (if_pos (h _ (by simp [storedBytes])))
    rw [hl, if_pos rfl, hh, wordOf_lowByte_highByte, trunc]

end Sys2Proof.Machine

open Sys2Proof.Machine

/-- Settles O19: at RAM the state after the write is that with the one cell put. -/
theorem byteAccessByKind : Obligations.ByteAccessByKind := by
  intro s a b
  refine ⟨fun hram => ?_, fun hrom => ?_, fun hun => ?_, fun hdev => ?_⟩
  · refine ⟨read8_of_backed (.inl hram), s.putCell a b, write8_of_ram b hram, s.cell_putCell_self a b, memBut_putCell s a b,
      (onlyMem_putCell s a b).regsBut [], rfl, ?_⟩
    rw [read8_of_backed (s := s.putCell a b) (.inl hram), s.cell_putCell_self]
  · exact ⟨read8_of_backed (.inr hrom), write8_of_rom b hrom⟩
  · exact ⟨write8_of_unmapped b hun, s.draw 8, read8_of_unmapped hun⟩
  · exact ⟨read8_of_device hdev, write8_of_device b hdev⟩

/-- Settles O20: the successors as numbers, and the reads of RAM and ROM byte by byte. -/
theorem multiByteReads : Obligations.MultiByteReads := by
  intro s a
  refine ⟨toNat_succ_lin s a, toNat_succ_bank s a, toNat_succ_page s a, fun wrap h0 h1 => ?_⟩
  exact ⟨read16_of_backed h0 h1, toNat_pair s a _, read24_of_backed h0 h1⟩

/-- Settles O21: no stored byte is a device's, so the store succeeds, and each byte it leaves is read back. -/
theorem loadAfterStore : Obligations.LoadAfterStore := by
  intro s w a wrap v hram
  have hdev : ∀ b ∈ storedBytes w a wrap s, NotDevice s b := fun b hb => by simp [hram b hb]
  exact ⟨_, store_of_notDevice v hdev, load_storedState v hram, frame_storedState w a wrap v s⟩
end

section
/-! PROOF. The encoding (30_encoding.md R90 to R97): what an accepted list of bytes is made of, that every row of the opcode
map builds the instruction which is encoded with the row's opcode byte, and from these the two directions of the round
trip. -/

namespace Sys2Proof

/-! ## What the decoder accepts (R94) -/

/-- A row takes nothing from the bytes after its operand bytes (R93). -/
theorem Build.apply_append {b : Build} {wm wx : Width} {bs : List Byte} (h : bs.length = b.operandBytes wm wx)
    (rest : List Byte) :
    b.apply wm wx ((bs ++ rest).getD 0 0) ((bs ++ rest).getD 1 0) ((bs ++ rest).getD 2 0) =
      b.apply wm wx (bs.getD 0 0) (bs.getD 1 0) (bs.getD 2 0) := by
  have byte : ∀ k < b.operandBytes wm wx, (bs ++ rest).getD k 0 = bs.getD k 0 :=
    fun k hk => List.getD_append _ _ _ _ (h ▸ hk)
  have word : 1 < b.operandBytes wm wx →
      wordOf ((bs ++ rest).getD 0 0) ((bs ++ rest).getD 1 0) = wordOf (bs.getD 0 0) (bs.getD 1 0) :=
    fun h1 => congrArg₂ wordOf (byte 0 (Nat.zero_lt_of_lt h1)) (byte 1 h1)
  cases b with
  | imp i => rfl
  | sig f | imm8 f | dp f | sr f | rel8 f => exact congrArg f (byte 0 Nat.one_pos)
  | abs f | rel16 f => exact congrArg f (word Nat.one_lt_two)
  | blk f => exact congrArg₂ f (byte 0 Nat.two_pos) (byte 1 Nat.one_lt_two)
  | long f => exact congrArg f (congrArg₂ addrOf (byte 2 (Nat.lt_succ_self 2)) (word (Nat.lt_succ_of_lt Nat.one_lt_two)))
  | immM f =>
    cases wm
    case w8 => exact congrArg f (congrArg (wordOf · 0) (byte 0 Nat.one_pos))
    case w16 => exact congrArg f (word Nat.one_lt_two)
  | immX f =>
    cases wx
    case w8 => exact congrArg f (congrArg (wordOf · 0) (byte 0 Nat.one_pos))
    case w16 => exact congrArg f (word Nat.one_lt_two)

/-- The decoder accepts exactly the lists that begin with the opcode byte of a row which the variant has and as many bytes
as that row takes; it answers what the row builds from them, and leaves the others. -/
theorem decode_eq_ok_iff {v : Variant} {wm wx : Width} {bytes rest : List Byte} {i : Instr} :
    decode v wm wx bytes = .ok i rest ↔
      ∃ op r bs, opcodeRow? v op = some r ∧ bs.length = r.build.operandBytes wm wx ∧ bytes = op :: (bs ++ rest) ∧
        i = r.build.apply wm wx (bs.getD 0 0) (bs.getD 1 0) (bs.getD 2 0) := by
  constructor
  · intro h
    cases bytes with
    | nil => cases h
    | cons op tail =>
      cases hr : opcodeRow? v op with
      | none => simp [decode, hr] at h
      | some r =>
        simp only [decode, hr] at h
        split at h
        · cases h
        next hlen =>
        injection h with hi hrest
        have htake : (tail.take (r.build.operandBytes wm wx)).length = r.build.operandBytes wm wx :=
          List.length_take_of_le (by omega)
        have hsplit := List.take_append_drop (r.build.operandBytes wm wx) tail
        refine ⟨op, r, _, hr, htake, ?_, ?_⟩
        · rw [← hrest, hsplit]
        · rw [← Build.apply_append htake (tail.drop _), hsplit, hi]
  · rintro ⟨op, r, bs, hr, hlen, rfl, rfl⟩
    have hle : ¬ (bs ++ rest).length < bs.length := by rw [List.length_append]; omega
    simp only [decode, hr, Build.apply_append hlen, ← hlen, if_neg hle, List.drop_left]

/-! ## Every instruction has its row (R95) -/

/-- The opcode map holds the row of every instruction at its opcode byte: the laws of the constructors, in their order. -/
theorem row_of_instr (i : Instr) : Laws.Encodes.Statement i := by
  open Laws.Encodes in
  cases i
  exacts [
    brk _, oraDpXInd _, cop _, oraSr _, tsbDp _, oraDp _, aslDp _, oraDpIndLong _, oraImm _, tsbAbs _, oraAbs _,
    aslAbs _, oraLong _, bpl _, oraDpIndY _, oraDpInd _, oraSrIndY _, trbDp _, oraDpX _, aslDpX _, oraDpIndLongY _,
    oraAbsY _, trbAbs _, oraAbsX _, aslAbsX _, oraLongX _, jsrAbs _, andDpXInd _, jsl _, andSr _, bitDp _, andDp _,
    rolDp _, andDpIndLong _, andImm _, bitAbs _, andAbs _, rolAbs _, andLong _, bmi _, andDpIndY _, andDpInd _,
    andSrIndY _, bitDpX _, andDpX _, rolDpX _, andDpIndLongY _, andAbsY _, bitAbsX _, andAbsX _, rolAbsX _, andLongX _,
    eorDpXInd _, wdm _, eorSr _, mvp _ _, eorDp _, lsrDp _, eorDpIndLong _, eorImm _, jmpAbs _, eorAbs _, lsrAbs _,
    eorLong _, bvc _, eorDpIndY _, eorDpInd _, eorSrIndY _, mvn _ _, eorDpX _, lsrDpX _, eorDpIndLongY _, eorAbsY _,
    jmpLong _, eorAbsX _, lsrAbsX _, eorLongX _, adcDpXInd _, per _, adcSr _, stzDp _, adcDp _, rorDp _,
    adcDpIndLong _, adcImm _, jmpAbsInd _, adcAbs _, rorAbs _, adcLong _, bvs _, adcDpIndY _, adcDpInd _, adcSrIndY _,
    stzDpX _, adcDpX _, rorDpX _, adcDpIndLongY _, adcAbsY _, jmpAbsXInd _, adcAbsX _, rorAbsX _, adcLongX _, bra _,
    staDpXInd _, brl _, staSr _, styDp _, staDp _, stxDp _, staDpIndLong _, bitImm _, styAbs _, staAbs _, stxAbs _,
    staLong _, bcc _, staDpIndY _, staDpInd _, staSrIndY _, styDpX _, staDpX _, stxDpY _, staDpIndLongY _, staAbsY _,
    stzAbs _, staAbsX _, stzAbsX _, staLongX _, ldyImm _, ldaDpXInd _, ldxImm _, ldaSr _, ldyDp _, ldaDp _, ldxDp _,
    ldaDpIndLong _, ldaImm _, ldyAbs _, ldaAbs _, ldxAbs _, ldaLong _, bcs _, ldaDpIndY _, ldaDpInd _, ldaSrIndY _,
    ldyDpX _, ldaDpX _, ldxDpIdx _, ldaDpIndLongY _, ldaAbsY _, ldyAbsX _, ldaAbsX _, ldxAbsIdx _, ldaLongX _,
    cpyImm _, cmpDpXInd _, rep _, cmpSr _, cpyDp _, cmpDp _, decDp _, cmpDpIndLong _, cmpImm _, cpyAbs _, cmpAbs _,
    decAbs _, cmpLong _, bne _, cmpDpIndY _, cmpDpInd _, cmpSrIndY _, pei _, cmpDpX _, decDpX _, cmpDpIndLongY _,
    cmpAbsY _, jmpAbsIndLong _, cmpAbsX _, decAbsX _, cmpLongX _, cpxImm _, sbcDpXInd _, sep _, sbcSr _, cpxDp _,
    sbcDp _, incDp _, sbcDpIndLong _, sbcImm _, cpxAbs _, sbcAbs _, incAbs _, sbcLong _, beq _, sbcDpIndY _,
    sbcDpInd _, sbcSrIndY _, pea _, sbcDpX _, incDpX _, sbcDpIndLongY _, sbcAbsY _, jsrAbsXInd _, sbcAbsX _, incAbsX _,
    sbcLongX _, php, aslA, phd, clc, incA, tcs, plp, rolA, pld, sec, decA, tsc, rti, pha, lsrA, phk, cli, phy, tcd,
    rts, pla, rorA, rtl, sei, ply, tdc, dey, txa, phb, tya, txs, txy, tay, tax, plb, clv, tsx, tyx, iny, dex, wai, cld,
    phx, stp, inx, nop, xba, sed, plx, xce]

theorem opcodeRow?_of_getElem? {v : Variant} {op : Byte} {r : Row} (hr : opcodeMap[op.toNat]? = some r)
    (hv : r.avail.on v = true) : opcodeRow? v op = some r := by
  simp [opcodeRow?, hr, hv]

end Sys2Proof

/-- Settles O1: the instruction's own row reads its operand bytes back. -/
theorem decodeOfEncode : Obligations.DecodeOfEncode := by
  intro v wm wx i rest hwf
  obtain ⟨havail, hfits⟩ := (Bool.and_eq_true _ _).mp hwf
  obtain ⟨r, hr, hravail, hrow⟩ := Sys2Proof.row_of_instr i
  obtain ⟨hlen, hbuild⟩ := hrow wm wx hfits
  refine Sys2Proof.decode_eq_ok_iff.2 ⟨i.opcode, r, i.operand.bytes wm wx, ?_, hlen.symm, rfl, ?_⟩
  · exact Sys2Proof.opcodeRow?_of_getElem? hr (hravail ▸ havail)
  · simpa using (hbuild []).symm

namespace Sys2Proof

/-! ## Every row builds its instruction (R91 to R93, R95) -/

/-- The operand of what a row builds from the operand bytes. -/
def Build.operand (wm wx : Width) (o1 o2 o3 : Byte) : Build → Operand
  | .imp _ => .imp
  | .sig _ => .sig o1
  | .imm8 _ => .imm8 o1
  | .immM _ => .immM (wm.imm o1 o2)
  | .immX _ => .immX (wx.imm o1 o2)
  | .dp _ => .dp o1
  | .sr _ => .sr o1
  | .abs _ => .abs (wordOf o1 o2)
  | .long _ => .long (addrOf o3 (wordOf o1 o2))
  | .rel8 _ => .rel8 o1
  | .rel16 _ => .rel16 (wordOf o1 o2)
  | .blk _ => .blk o1 o2

theorem Width.fits_imm (w : Width) (o1 o2 : Byte) : w.fits (w.imm o1 o2) = true := by
  cases w
  case w8 => simpa [Width.fits, Width.imm] using o1.isLt
  case w16 => rfl

theorem Width.immBytes_imm (w : Width) (o1 o2 : Byte) : w.immBytes (w.imm o1 o2) = [o1, o2].take w.bytes := by
  cases w
  case w8 => simp [Width.immBytes, Width.imm, Width.bytes]
  case w16 => simp [Width.immBytes, Width.imm, Width.bytes]

/-- A constant of a row fits its width: it has no more bytes than the row takes. -/
theorem Build.operand_fits (b : Build) (wm wx : Width) (o1 o2 o3 : Byte) : (b.operand wm wx o1 o2 o3).fits wm wx = true := by
  cases b with
  | immM f => exact wm.fits_imm o1 o2
  | immX f => exact wx.fits_imm o1 o2
  | _ => rfl

/-- The operand keeps every bit of the bytes that the row takes. -/
theorem Build.operand_bytes (b : Build) (wm wx : Width) (o1 o2 o3 : Byte) :
    (b.operand wm wx o1 o2 o3).bytes wm wx = [o1, o2, o3].take (b.operandBytes wm wx) := by
  cases b with
  | immM f => rw [Build.operand, Operand.bytes, Width.immBytes_imm]; cases wm <;> rfl
  | immX f => rw [Build.operand, Operand.bytes, Width.immBytes_imm]; cases wx <;> rfl
  | abs f | rel16 f | long f => simp [Build.operand, Operand.bytes, Build.operandBytes]
  | _ => rfl

theorem Build.operandBytes_le (b : Build) (wm wx : Width) : b.operandBytes wm wx ≤ 3 := by
  cases b with
  | immM f => cases wm <;> simp [Build.operandBytes, Width.bytes]
  | immX f => cases wx <;> simp [Build.operandBytes, Width.bytes]
  | _ => simp [Build.operandBytes]

/-- The row `r` is the one of opcode byte `n`: what it builds has that opcode and the operand of its format. -/
def RowBuilds (r : Row) (n : Nat) : Prop :=
  ∀ wm wx o1 o2 o3, (r.build.apply wm wx o1 o2 o3).opcode = BitVec.ofNat 8 n ∧
    (r.build.apply wm wx o1 o2 o3).operand = r.build.operand wm wx o1 o2 o3

/-- Each of the 256 rows of the map computes to its instruction. -/
theorem rowBuilds_of_mem {p : Row × Nat} (h : p ∈ opcodeMap.zipIdx) : RowBuilds p.1 p.2 := by
  revert p
  rw [← List.forall_iff_forall_mem]
  repeat' apply And.intro
  all_goals exact fun _ _ _ _ _ => ⟨rfl, rfl⟩

theorem getElem?_of_opcodeRow? {v : Variant} {op : Byte} {r : Row} (h : opcodeRow? v op = some r) :
    opcodeMap[op.toNat]? = some r := by
  unfold opcodeRow? at h
  split at h
  · next hr =>
    split at h
    · cases h; exact hr
    · cases h
  · cases h

theorem rowBuilds_of_opcodeRow? {v : Variant} {op : Byte} {r : Row} (h : opcodeRow? v op = some r) :
    RowBuilds r op.toNat :=
  rowBuilds_of_mem (p := (r, op.toNat)) (List.mem_zipIdx_iff_getElem?.2 (getElem?_of_opcodeRow? h))

/-- What a row builds is encoded as the row's opcode byte and the bytes it was built from. -/
theorem encode_apply {v : Variant} {wm wx : Width} {op : Byte} {r : Row} (hr : opcodeRow? v op = some r) (o1 o2 o3 : Byte) :
    encode wm wx (r.build.apply wm wx o1 o2 o3) = op :: [o1, o2, o3].take (r.build.operandBytes wm wx) := by
  obtain ⟨hop, hoperand⟩ := rowBuilds_of_opcodeRow? hr wm wx o1 o2 o3
  rw [encode, hop, hoperand, Build.operand_bytes, BitVec.ofNat_toNat, BitVec.setWidth_eq]

/-- What a row builds is well formed on every variant that has the row (R97). -/
theorem wellFormed_apply {v : Variant} {wm wx : Width} {op : Byte} {r : Row} (hr : opcodeRow? v op = some r)
    (o1 o2 o3 : Byte) : (r.build.apply wm wx o1 o2 o3).wellFormed v wm wx = true := by
  obtain ⟨hmem, havail⟩ := Machine.opcodeRow?_eq_some hr
  obtain ⟨_, hoperand⟩ := rowBuilds_of_opcodeRow? hr wm wx o1 o2 o3
  rw [Instr.wellFormed, Machine.rowAvailable_of_mem hmem, hoperand, Build.operand_fits, havail, Bool.and_self]

/-- A list of at most three bytes is made of the bytes that a row is given. -/
theorem take_getD_of_length_le : ∀ {bs : List Byte}, bs.length ≤ 3 →
    [bs.getD 0 0, bs.getD 1 0, bs.getD 2 0].take bs.length = bs
  | [], _ => rfl
  | [_], _ => rfl
  | [_, _], _ => rfl
  | [_, _, _], _ => rfl
  | _ :: _ :: _ :: _ :: _, h => absurd h (by simp)

end Sys2Proof

/-- Settles O2: a row that the variant has builds a well-formed instruction, and its encoding gives the bytes back. -/
theorem encodeOfDecode : Obligations.EncodeOfDecode := by
  intro v wm wx bytes rest i h
  obtain ⟨op, r, bs, hr, hlen, rfl, rfl⟩ := Sys2Proof.decode_eq_ok_iff.1 h
  have hle : bs.length ≤ 3 := hlen ▸ r.build.operandBytes_le wm wx
  refine ⟨Sys2Proof.wellFormed_apply hr _ _ _, ?_⟩
  rw [Sys2Proof.encode_apply hr, ← hlen, Sys2Proof.take_getD_of_length_le hle, List.cons_append]

namespace Sys2Proof

/-! ## V65816 has every opcode byte (R94, R97) -/

theorem Availability.on_v65816 (a : Availability) : a.on .v65816 = true := by cases a <;> rfl

theorem length_opcodeMap : opcodeMap.length = 256 := by
  simp only [opcodeMap, List.length_append]
  rfl

theorem exists_opcodeRow?_v65816 (op : Byte) : ∃ r, opcodeRow? .v65816 op = some r := by
  have hlt : op.toNat < opcodeMap.length := length_opcodeMap ▸ op.isLt
  exact ⟨_, opcodeRow?_of_getElem? (List.getElem?_eq_getElem hlt) (Availability.on_v65816 _)⟩

end Sys2Proof

/-- Settles O3: the byte has a row, and no row takes more than three operand bytes. -/
theorem everyByteDecodesOnV65816 : Obligations.EveryByteDecodesOnV65816 := by
  intro wm wx op o1 o2 o3 rest
  obtain ⟨r, hr⟩ := Sys2Proof.exists_opcodeRow?_v65816 op
  have hsplit := List.take_append_drop (r.build.operandBytes wm wx) [o1, o2, o3]
  refine ⟨_, [o1, o2, o3].drop (r.build.operandBytes wm wx) ++ rest, Sys2Proof.decode_eq_ok_iff.2
    ⟨op, r, [o1, o2, o3].take (r.build.operandBytes wm wx), hr, ?_, ?_, rfl⟩, ?_⟩
  · exact List.length_take_of_le (r.build.operandBytes_le wm wx)
  · rw [← List.append_assoc, hsplit]; rfl
  · exact (List.cons.inj (Sys2Proof.encode_apply (wm := wm) (wx := wx) hr _ _ _)).1

namespace Sys2Proof

/-! ## Lengths (R92) -/

theorem Width.length_immBytes (w : Width) (k : Word) : (w.immBytes k).length + 1 = if w = .w16 then 3 else 2 := by
  cases w <;> rfl

end Sys2Proof

/-- Settles O4: the two lists are the opcodes of the two formats of variable length. -/
theorem instructionLengths : Obligations.InstructionLengths := by
  intro wm wx i
  cases i with
  | oraImm k | andImm k | eorImm k | adcImm k | bitImm k | ldaImm k | cmpImm k | sbcImm k =>
    exact ⟨fun _ => wm.length_immBytes k, fun h => absurd h (by simp [Sys2Proof.Instr.opcode]),
      fun h => absurd (by simp [Sys2Proof.Instr.opcode]) h⟩
  | ldyImm k | ldxImm k | cpyImm k | cpxImm k =>
    exact ⟨fun h => absurd h (by simp [Sys2Proof.Instr.opcode]), fun _ => wx.length_immBytes k,
      fun h => absurd (by simp [Sys2Proof.Instr.opcode]) h⟩
  | _ =>
    exact ⟨fun h => absurd h (by simp [Sys2Proof.Instr.opcode]), fun h => absurd h (by simp [Sys2Proof.Instr.opcode]),
      fun _ _ _ => rfl⟩

/-- Settles O5: each word is the encoding of a well-formed instruction. -/
theorem sampleWordsDecode : Obligations.SampleWordsDecode :=
  ⟨decodeOfEncode .v6502 .w8 .w8 .aslA [] rfl,
    decodeOfEncode .v6502 .w8 .w8 (.ldaImm 0x12) [] rfl,
    decodeOfEncode .v65816 .w16 .w8 (.ldaImm 0x1234) [] rfl,
    decodeOfEncode .v65816 .w8 .w16 (.ldyImm 0x1234) [] rfl,
    decodeOfEncode .v6502 .w8 .w8 (.adcAbs 0x1234) [] rfl,
    decodeOfEncode .v65816 .w8 .w8 (.ldaLong 0x7E1234) [] rfl,
    decodeOfEncode .v65816 .w8 .w8 (.brl 0xFFFD) [] rfl,
    decodeOfEncode .v65816 .w8 .w8 (.jmpLong 0x028000) [] rfl,
    decodeOfEncode .v65816 .w16 .w16 (.mvn 0x01 0x02) [] rfl,
    decodeOfEncode .v65816 .w16 .w16 (.rep 0x30) [] rfl⟩
end

section
/-! PROOF. The fetch and the step (30_encoding.md R94, R97; 60_exceptions.md R369): a fetch from RAM or ROM decodes the bytes
that memory holds at PBR:PC, a step at a quiet boundary is that fetch and the instruction, and a step is refused for three
reasons only. -/

namespace Sys2Proof.Machine

/-! ## The bytes at PBR:PC -/

/-- The `n` bytes that memory holds from instruction byte `k` on. -/
def State.bytesAt (s : State) (k n : Nat) : List Byte := (List.range' k n).map fun j => s.cell (s.fetchAddr j)

theorem State.bytesAt_zero_eq_range (s : State) (n : Nat) :
    s.bytesAt 0 n = (List.range n).map fun k => s.cell (s.fetchAddr k) := by
  rw [bytesAt, List.range_eq_range']

@[simp] theorem State.length_bytesAt (s : State) (k n : Nat) : (s.bytesAt k n).length = n := by simp [bytesAt]

theorem State.bytesAt_succ (s : State) (k n : Nat) :
    s.bytesAt k (n + 1) = s.cell (s.fetchAddr k) :: s.bytesAt (k + 1) n := rfl

theorem State.bytesAt_add (s : State) (k m n : Nat) : s.bytesAt k (m + n) = s.bytesAt k m ++ s.bytesAt (k + m) n := by
  rw [bytesAt, bytesAt, bytesAt, ← List.map_append, List.range'_append_1]

theorem fetchFrom_of_backed {s : State} :
    ∀ (n k : Nat), (∀ j < k + n, Backed s (s.fetchAddr j)) → fetchFrom k n s = .ok (s.bytesAt k n) s
  | 0, _, _ => rfl
  | n + 1, k, h => by
    have htail := fetchFrom_of_backed n (k + 1) fun j hj => h j (by omega)
    rw [fetchFrom, read8_of_backed (h k (by omega)), Access.bind_ok, htail, Access.bind_ok, State.bytesAt_succ]

/-- A fetch from RAM or ROM reads the opcode byte and as many bytes as its row takes, and no more. -/
theorem fetchInstr_of_row {s : State} {r : Row} (hr : opcodeRow? s.cfg.variant (s.cell (s.fetchAddr 0)) = some r)
    {bs : List Byte} (hbs : s.bytesAt 1 (r.build.operandBytes s.wm s.wx) = bs)
    (hback : ∀ k < 1 + r.build.operandBytes s.wm s.wx, Backed s (s.fetchAddr k)) :
    fetchInstr s = .ok (r.build.apply s.wm s.wx (bs.getD 0 0) (bs.getD 1 0) (bs.getD 2 0)) s := by
  unfold fetchInstr
  rw [read8_of_backed (hback 0 (by omega)), Access.bind_ok, hr]
  simp only [fetchFrom_of_backed _ 1 hback, Access.bind_ok, hbs]

/-- A fetch from RAM or ROM gives what the decoder reads from any stretch of the bytes there that holds the instruction. -/
theorem fetchInstr_of_decode {s : State} {n : Nat} {i : Instr} {rest : List Byte}
    (hback : ∀ k < n, Backed s (s.fetchAddr k)) (h : decode s.cfg.variant s.wm s.wx (s.bytesAt 0 n) = .ok i rest) :
    fetchInstr s = .ok i s := by
  obtain ⟨op, r, bs, hr, hlen, hbytes, rfl⟩ := decode_eq_ok_iff.1 h
  have hn : n = bs.length + rest.length + 1 := by simpa using congrArg List.length hbytes
  rw [hn, State.bytesAt_succ, State.bytesAt_add] at hbytes
  obtain ⟨hop, htail⟩ := List.cons.inj hbytes
  obtain ⟨hbs, _⟩ := List.append_inj htail (s.length_bytesAt _ _)
  rw [← hop] at hr
  exact fetchInstr_of_row hr (hlen ▸ hbs) fun k hk => hback k (by omega)

/-- A fetch from RAM or ROM of an opcode byte without a row is refused by name (R97). -/
theorem fetchInstr_of_illegal {s : State} (hback : Backed s (s.fetchAddr 0))
    (hr : opcodeRow? s.cfg.variant (s.cell (s.fetchAddr 0)) = none) :
    fetchInstr s = .stop (.illegalOpcode (s.cell (s.fetchAddr 0))) := by
  unfold fetchInstr
  rw [read8_of_backed hback, Access.bind_ok, hr]

/-! ## A step at a quiet boundary (60_exceptions.md R346, R369) -/

theorem step_of_quiet {s : State} (h : s.quiet = true) : step s = executeNext s.latchInput := by
  simp only [State.quiet, Bool.and_eq_true, Bool.not_eq_true', beq_iff_eq] at h
  obtain ⟨⟨⟨⟨⟨hrun, hreset⟩, habort⟩, hpin⟩, hnmi⟩, hirq⟩ := h
  simp [step, boundary, boundaryRunning, hrun, hreset, habort, hpin, hnmi, hirq]

@[simp] theorem State.fetchAddr_latchInput (s : State) (k : Nat) : s.latchInput.fetchAddr k = s.fetchAddr k := rfl

@[simp] theorem State.bytesAt_latchInput (s : State) (k n : Nat) : s.latchInput.bytesAt k n = s.bytesAt k n := rfl

/-- At a quiet boundary a step runs what the decoder reads from the bytes at PBR:PC. -/
theorem step_of_decode {s : State} {n : Nat} {i : Instr} {rest : List Byte} (hq : s.quiet = true)
    (hback : ∀ k < n, Backed s (s.fetchAddr k)) (h : decode s.cfg.variant s.wm s.wx (s.bytesAt 0 n) = .ok i rest) :
    step s = exec i s.latchInput := by
  have hf : fetchInstr s.latchInput = .ok i s.latchInput :=
    fetchInstr_of_decode (n := n) (rest := rest) hback (by simpa using h)
  rw [step_of_quiet hq, executeNext, hf, Access.andThen_ok]

end Sys2Proof.Machine

open Sys2Proof.Machine

/-- Settles O6: the whole stretch of bytes is the instruction's. -/
theorem stepRunsDecodedInstruction : Obligations.StepRunsDecodedInstruction := by
  intro s i n hq hback h
  exact step_of_decode hq hback (s.bytesAt_zero_eq_range n ▸ h)

/-- Settles O7: taking the input changes neither the byte fetched nor the variant. -/
theorem illegalOpcodeIsRefused : Obligations.IllegalOpcodeIsRefused := by
  intro s hq hback hr
  have hf : fetchInstr s.latchInput = .stop (.illegalOpcode (s.latchInput.cell (s.latchInput.fetchAddr 0))) :=
    fetchInstr_of_illegal hback (by simpa using hr)
  rw [step_of_quiet hq, executeNext, hf, Access.andThen_stop, State.fetchAddr_latchInput, State.cell_latchInput]

namespace Sys2Proof.Machine

/-! ## A placed program (log 19) -/

theorem OnlyMem.fetchAddr {s t : State} (h : OnlyMem s t) (k : Nat) : t.fetchAddr k = s.fetchAddr k := by rw [h]; rfl

theorem onlyMem_putProgram (bs : List Byte) : ∀ (s : State) (k : Nat), OnlyMem s (s.putProgram k bs) := by
  induction bs with
  | nil => exact fun s _ => OnlyMem.refl s
  | cons b bs ih => exact fun s k => (onlyMem_putCell s (s.fetchAddr k) b).trans (ih _ (k + 1))

theorem offset_busAddr (cfg : Config) (a : Addr) : Addr.offset (busAddr cfg a) = Addr.offset a := by
  unfold busAddr
  split
  · exact offset_addrOf 0 _
  · rfl

/-- Instruction bytes less than a bank apart lie at different addresses, on the bus too. -/
theorem busAddr_fetchAddr_ne (s : State) (cfg : Config) {j k : Nat} (h : j < k) (hk : k < j + 65536) :
    busAddr cfg (s.fetchAddr k) ≠ busAddr cfg (s.fetchAddr j) := by
  intro he
  have ho : s.pc + BitVec.ofNat 16 k = s.pc + BitVec.ofNat 16 j := by
    have ho := congrArg Addr.offset he
    simpa only [offset_busAddr, State.fetchAddr, offset_addrOf] using ho
  have hn := congrArg BitVec.toNat ho
  simp only [BitVec.toNat_add, BitVec.toNat_ofNat] at hn
  omega

/-- A program leaves the bytes before it, as far as it does not come round to them. -/
theorem cell_putProgram_before {bs : List Byte} {j : Nat} : ∀ {s : State} {k : Nat},
    j < k → k + bs.length ≤ j + 65536 → (s.putProgram k bs).cell (s.fetchAddr j) = s.cell (s.fetchAddr j) := by
  induction bs with
  | nil => exact fun _ _ => rfl
  | cons b bs ih =>
    intro s k hj hk
    rw [List.length_cons] at hk
    have hput := (s.cell_putCell (s.fetchAddr k) (s.fetchAddr j) b).trans
      (if_neg (busAddr_fetchAddr_ne s s.cfg hj (by omega)))
    exact (ih (s := s.putCell (s.fetchAddr k) b) (by omega) (by omega)).trans hput

/-- A program of at most one bank is read back as placed. -/
theorem bytesAt_putProgram {bs : List Byte} : ∀ {s : State} {k : Nat}, bs.length ≤ 65536 →
    (s.putProgram k bs).bytesAt k bs.length = bs := by
  induction bs with
  | nil => exact fun _ => rfl
  | cons b bs ih =>
    intro s k hlen
    rw [List.length_cons] at hlen
    have hhead : (s.putProgram k (b :: bs)).cell (s.fetchAddr k) = b :=
      (cell_putProgram_before (s := s.putCell (s.fetchAddr k) b) (by omega) (by omega)).trans (s.cell_putCell_self _ b)
    rw [List.length_cons, State.bytesAt_succ, (onlyMem_putProgram (b :: bs) s k).fetchAddr, hhead]
    exact congrArg (b :: ·) (ih (by omega))

theorem quiet_withFetchWord (s : State) (nbits w : Nat) : (s.withFetchWord nbits w).quiet = true := rfl

theorem latchInput_withFetchWord (s : State) (nbits w : Nat) :
    (s.withFetchWord nbits w).latchInput = s.withFetchWord nbits w := rfl

/-- The bytes at PBR:PC do not depend on the run state, the interrupts and the inputs. -/
theorem State.bytesAt_with_boundary (s : State) (run : RunState) (nmi irq : Bool) (inputs : List EnvInput) (k n : Nat) :
    ({ s with run := run, nmiPending := nmi, irqLine := irq, inputs := inputs } : State).bytesAt k n = s.bytesAt k n := rfl

theorem length_tableBytes (nbits w : Nat) : (tableBytes nbits w).length = 4 := rfl

theorem bytesAt_withFetchWord (s : State) (nbits w : Nat) : (s.withFetchWord nbits w).bytesAt 0 4 = tableBytes nbits w := by
  have h : (s.putProgram 0 (tableBytes nbits w)).bytesAt 0 (tableBytes nbits w).length = tableBytes nbits w :=
    bytesAt_putProgram (by rw [length_tableBytes]; omega)
  rwa [State.withFetchWord, State.bytesAt_with_boundary, ← length_tableBytes nbits w]

/-- The placing keeps the launch, the mode and the widths. -/
theorem withFetchWord_keeps (s : State) (nbits w : Nat) :
    (s.withFetchWord nbits w).cfg = s.cfg ∧ (s.withFetchWord nbits w).wm = s.wm ∧
      (s.withFetchWord nbits w).wx = s.wx := by
  have h := onlyMem_putProgram (tableBytes nbits w) s 0
  unfold State.withFetchWord
  rw [h]
  exact ⟨rfl, rfl, rfl⟩

end Sys2Proof.Machine

/-- Settles O8: the placed bytes are those of the table word, in RAM, and nothing comes before them. -/
theorem placedWordRunsNext : Obligations.PlacedWordRunsNext := by
  intro nbits w i h
  obtain ⟨hcfg, hwm, hwx⟩ := withFetchWord_keeps State.reset nbits w
  have hback : ∀ k < 4, Backed (State.reset.withFetchWord nbits w) ((State.reset.withFetchWord nbits w).fetchAddr k) :=
    fun k _ => .inl (by rw [hcfg]; rfl)
  unfold Sys2Proof.decodeTableWord at h
  split at h
  · next j rest hd =>
    cases h
    have hstep := step_of_decode (rest := rest) (i := i) (quiet_withFetchWord State.reset nbits w) hback
      (by rw [hcfg, hwm, hwx, bytesAt_withFetchWord]; exact hd)
    rwa [latchInput_withFetchWord] at hstep
  · cases h

namespace Sys2Proof.Machine

/-! ## Why a step is refused (R97; logs 9, 10, 14) -/

/-- An answer of a step on the launch `cfg`, `abort` telling whether ABORT is asserted: a next state, or a refusal for an
opcode byte that the variant does not have, for a device, or for ABORT. -/
inductive Accounted (cfg : Config) (abort : Bool) : Result → Prop where
  | next (t : State) : Accounted cfg abort (.next t)
  | illegal (op : Byte) (h : opcodeRow? cfg.variant op = none) : Accounted cfg abort (.refused (.illegalOpcode op))
  | device (a : Addr) (h : kindAt cfg a = .device) : Accounted cfg abort (.refused (.deviceAccessSequence a))
  | abort (h : abort = true) : Accounted cfg abort (.refused .abortAsserted)

theorem SoundResult.accounted {cfg : Config} {abort : Bool} {x : Result} (h : SoundResult cfg x) :
    Accounted cfg abort x := by
  cases x with
  | next t => exact .next t
  | fault f => cases f
  | refused r =>
    obtain ⟨a, rfl, ha⟩ := h
    exact .device a ha

/-- Everything that a fetch is refused for. -/
theorem fetchInstr_eq_stop {s : State} {r : Refusal} (h : fetchInstr s = .stop r) :
    (∃ op, r = .illegalOpcode op ∧ opcodeRow? s.cfg.variant op = none) ∨ ByDevice s.cfg r := by
  unfold fetchInstr at h
  cases h0 : read8 (s.fetchAddr 0) s with
  | stop r0 =>
    rw [h0] at h
    cases h
    exact .inr ⟨_, read8_eq_stop h0⟩
  | ok op s1 =>
    rw [h0, Access.bind_ok] at h
    cases hr : opcodeRow? s.cfg.variant op with
    | none =>
      rw [hr] at h
      cases h
      exact .inl ⟨op, rfl, hr⟩
    | some row =>
      rw [hr] at h
      dsimp only at h
      have hsound := (fetchFrom_sound (row.build.operandBytes s.wm s.wx) 1 (read8_onlyDraws h0).cfg).bind
        fun bs s2 h2 => Access.Sound.ok (row.build.apply s.wm s.wx (bs.getD 0 0) (bs.getD 1 0) (bs.getD 2 0)) h2
      rw [h] at hsound
      exact .inr hsound

theorem executeNext_accounted (abort : Bool) (s : State) : Accounted s.cfg abort (executeNext s) := by
  unfold executeNext
  cases hf : fetchInstr s with
  | ok i u =>
    rw [← (fetchInstr_eq_ok hf).1.cfg]
    exact (exec_sound i u).accounted
  | stop r =>
    rcases fetchInstr_eq_stop hf with ⟨op, rfl, hop⟩ | ⟨a, rfl, ha⟩
    · exact .illegal op hop
    · exact .device a ha

theorem takeNmi_sound (s : State) : SoundResult s.cfg (takeNmi s) :=
  enter_sound .nmi s.pc (s := { s with nmiPending := false }) rfl

theorem boundaryRunning_accounted (inp : EnvInput) (s : State) : Accounted s.cfg inp.abort (boundaryRunning inp s) := by
  have hpin : (if inp.overflowPin then s.setFlag .v true else s).cfg = s.cfg := by split <;> rfl
  unfold boundaryRunning
  split
  · exact (resetEvent_sound rfl).accounted
  split
  · next habort => exact .abort habort
  dsimp only
  generalize (if inp.overflowPin then s.setFlag .v true else s) = u at hpin ⊢
  rw [← hpin]
  split
  · exact (takeNmi_sound u).accounted
  split
  · exact (enter_sound .irq u.pc rfl).accounted
  · exact executeNext_accounted inp.abort u

theorem boundaryWaiting_accounted (inp : EnvInput) (s : State) : Accounted s.cfg inp.abort (boundaryWaiting inp s) := by
  unfold boundaryWaiting
  split
  · exact (resetEvent_sound rfl).accounted
  split
  · next habort => exact .abort habort
  split
  · exact (takeNmi_sound { s with run := .running }).accounted
  split
  · split
    · exact .next _
    · exact (enter_sound .irq s.pc (s := { s with run := .running }) rfl).accounted
  · exact .next s

theorem boundaryStopped_accounted (inp : EnvInput) (s : State) : Accounted s.cfg inp.abort (boundaryStopped inp s) := by
  unfold boundaryStopped
  split
  · exact (resetEvent_sound rfl).accounted
  · exact .next s

/-- Every step is accounted for, in each run state; taking the input keeps the launch. -/
theorem step_accounted (s : State) : Accounted s.cfg s.nextInput.abort (step s) := by
  rw [← s.latchInput_cfg]
  unfold step boundary
  split
  · exact boundaryRunning_accounted s.nextInput s.latchInput
  · exact boundaryWaiting_accounted s.nextInput s.latchInput
  · exact boundaryStopped_accounted s.nextInput s.latchInput

end Sys2Proof.Machine

/-- Settles O13: the reasons of `step_accounted`, one by one. -/
theorem stepRefusedOnlyBySpec : Obligations.StepRefusedOnlyBySpec := by
  intro s
  have h := step_accounted s
  generalize step s = x at h ⊢
  cases h with
  | next t => exact .inl ⟨t, rfl⟩
  | illegal op hop => exact .inr (.inl ⟨op, rfl, hop⟩)
  | device a ha => exact .inr (.inr (.inl ⟨a, rfl, ha⟩))
  | abort habort => exact .inr (.inr (.inr ⟨rfl, habort⟩))
end

section
/-! PROOF. The addressing modes: reading an operand changes nothing (41_arithmetic.md R160), and the effective addresses of
40_addressing_modes.md as numbers. First each register and each address function of Operands.lean in numbers, then the two
ways a pointer is read from bank 0, then the modes. -/

namespace Sys2Proof.Machine

/-- An operand is data of the width it is read at. -/
theorem operand_lt {src : Source} {w : Width} {s t : State} {m : Word} (h : operand src w s = .ok m t) :
    m.toNat < modulus w := by
  cases src with
  | imm k =>
    cases h
    rw [toNat_trunc]
    exact Nat.mod_lt _ (modulus_pos w)
  | mem md =>
    obtain ⟨_, _, _, hload⟩ := operand_mem_eq_ok h
    exact load_lt hload

/-! ## The parts of an address, as numbers (40_addressing_modes.md R120, R121) -/

@[simp] theorem toNat_offsetOf (o1 : Byte) : (offsetOf o1).toNat = o1.toNat := by
  simp [offsetOf]

@[simp] theorem State.toNat_dReg (s : State) : s.dReg.toNat = s.dNat := by
  unfold State.dReg State.dNat; split <;> rfl

@[simp] theorem State.toNat_dataBank (s : State) : s.dataBank.toNat = s.bankNat := by
  unfold State.dataBank State.bankNat; split <;> rfl

theorem State.dNat_of_is816 {s : State} (h : s.is816 = true) : s.dNat = s.d.toNat := if_pos h

theorem State.dNat_of_not_is816 {s : State} (h : s.is816 = false) : s.dNat = 0 := if_neg (by simp [h])

theorem State.bankNat_of_is816 {s : State} (h : s.is816 = true) : s.bankNat = s.dbr.toNat := if_pos h

theorem State.bankNat_of_not_is816 {s : State} (h : s.is816 = false) : s.bankNat = 0 := if_neg (by simp [h])

theorem State.dNat_lt (s : State) : s.dNat < 65536 := s.toNat_dReg ▸ s.dReg.isLt

theorem lowByte_eq_zero_iff (w : Word) : lowByte w = 0 ↔ w.toNat % 256 = 0 := by
  rw [← BitVec.toNat_inj, toNat_lowByte]; rfl

theorem State.pageWraps_iff (s : State) : s.pageWraps = true ↔ s.PageCase := by
  simp only [State.pageWraps, State.PageCase, Bool.or_eq_true, Bool.and_eq_true, Bool.not_eq_true', beq_iff_eq,
    lowByte_eq_zero_iff]

/-- A 24-bit address is known by its number. -/
theorem addr_eq_ofNat {a : Addr} {n : Nat} (h : a.toNat = n) : a = BitVec.ofNat 24 n := by
  rw [← h, BitVec.ofNat_toNat, BitVec.setWidth_eq]

/-- A number of 16 bits is the number of an address, one in bank 0. -/
theorem toNat_addr_ofNat {n : Nat} (h : n < 65536) : (BitVec.ofNat 24 n).toNat = n := by
  rw [BitVec.toNat_ofNat, Nat.mod_eq_of_lt (by omega)]

/-! ## The direct page (R121) -/

theorem State.toNat_dpAddr (s : State) (k : Word) : (s.dpAddr k).toNat = s.dpNat k.toNat := by
  unfold State.dpAddr State.dpNat
  simp only [State.pageWraps_iff]
  split <;> simp

/-- An offset counts modulo 2^16. -/
theorem State.dpNat_mod (s : State) (n : Nat) : s.dpNat (n % 65536) = s.dpNat n := by
  unfold State.dpNat
  split <;> omega

theorem State.dpNat_lt (s : State) (n : Nat) : s.dpNat n < 65536 := by
  have := s.dNat_lt
  unfold State.dpNat
  split <;> omega

theorem State.dpAddr_offsetOf (s : State) (o1 : Byte) : s.dpAddr (offsetOf o1) = BitVec.ofNat 24 (s.dpNat o1.toNat) :=
  addr_eq_ofNat (by rw [s.toNat_dpAddr, toNat_offsetOf])

theorem State.dpAddr_offsetOf_add (s : State) (o1 : Byte) (i : Word) :
    s.dpAddr (offsetOf o1 + i) = BitVec.ofNat 24 (s.dpNat (o1.toNat + i.toNat)) :=
  addr_eq_ofNat (by rw [s.toNat_dpAddr, BitVec.toNat_add, toNat_offsetOf, s.dpNat_mod])

/-- In bank 0 the next pointer byte is where `DPnext` says. -/
theorem State.toNat_succ_dpNext (s : State) {a : Addr} (h : a.toNat < 65536) :
    (s.succ a s.dpNext).toNat = s.dpNextNat a.toNat := by
  unfold State.dpNext State.dpNextNat
  simp only [State.pageWraps_iff]
  split
  · exact toNat_succ_page s a
  · rw [toNat_succ_bank]; omega

theorem State.succ_dpNext_ofNat (s : State) {p : Nat} (h : p < 65536) :
    s.succ (BitVec.ofNat 24 p) s.dpNext = BitVec.ofNat 24 (s.dpNextNat p) := by
  have hp : (BitVec.ofNat 24 p).toNat = p := toNat_addr_ofNat h
  exact addr_eq_ofNat (by rw [s.toNat_succ_dpNext (hp.symm ▸ h), hp])

/-! ## Bank 0 without the page wrap (R133, R141) -/

theorem State.srAddr_eq (s : State) (o1 : Byte) : s.srAddr o1 = BitVec.ofNat 24 ((s.sp.toNat + o1.toNat) % 65536) :=
  addr_eq_ofNat (by simp [State.srAddr])

theorem State.dpLongAddr_eq {s : State} (h : s.is816 = true) (o1 : Byte) :
    s.dpLongAddr o1 = BitVec.ofNat 24 ((s.d.toNat + o1.toNat) % 65536) :=
  addr_eq_ofNat (by simp [State.dpLongAddr, State.dNat_of_is816 h])

theorem State.succ_bank_ofNat (s : State) (n : Nat) :
    s.succ (BitVec.ofNat 24 (n % 65536)) .bank = BitVec.ofNat 24 ((n + 1) % 65536) := by
  have hn : (BitVec.ofNat 24 (n % 65536)).toNat = n % 65536 := toNat_addr_ofNat (by omega)
  exact addr_eq_ofNat (by rw [toNat_succ_bank, hn]; omega)

/-! ## The data bank and the index (R132, R136, R137) -/

theorem State.toNat_dataAddr (s : State) (a : Word) : (s.dataAddr a).toNat = s.bankNat * 65536 + a.toNat := by
  simp [State.dataAddr]

theorem State.dataAddr_eq (s : State) (a : Word) : s.dataAddr a = BitVec.ofNat 24 (s.bankNat * 65536 + a.toNat) :=
  addr_eq_ofNat (s.toNat_dataAddr a)

/-- On V65816 an index is added to all 24 bits. -/
theorem State.addIndex_of_is816 {s : State} (h : s.is816 = true) (a : Addr) (i : Word) :
    s.addIndex a i = BitVec.ofNat 24 (a.toNat + i.toNat) := by
  apply BitVec.eq_of_toNat_eq
  simp [State.addIndex, h]

/-- On the 8-bit variants the bank is 0 and the index is added to 16 bits. -/
theorem State.addIndex_dataAddr (s : State) (a i : Word) :
    s.addIndex (s.dataAddr a) i = s.indexed (s.bankNat * 65536 + a.toNat) i.toNat := by
  cases h : s.is816
  case true => rw [State.addIndex_of_is816 h, s.toNat_dataAddr, State.indexed, if_pos h]
  case false =>
    rw [State.indexed, if_neg (by simp [h])]
    exact addr_eq_ofNat (by simp [State.addIndex, h, State.dataAddr, State.bankNat_of_not_is816 h])

/-! ## Reading a pointer from RAM or ROM -/

/-- A pointer on the direct page: its second byte is where `DPnext` says (R121). -/
theorem read16_dpNext {s : State} {p : Nat} (hp : p < 65536) (h0 : Backed s (BitVec.ofNat 24 p))
    (h1 : Backed s (BitVec.ofNat 24 (s.dpNextNat p))) :
    read16 (BitVec.ofNat 24 p) s.dpNext s = .ok (s.pair (BitVec.ofNat 24 p) (BitVec.ofNat 24 (s.dpNextNat p))) s := by
  rw [← s.succ_dpNext_ofNat hp] at h1 ⊢
  exact read16_of_backed h0 h1

/-- A pointer of two bytes in bank 0 (R142). -/
theorem read16_bank {s : State} {n : Nat} (h0 : Backed s (BitVec.ofNat 24 (n % 65536)))
    (h1 : Backed s (BitVec.ofNat 24 ((n + 1) % 65536))) :
    read16 (BitVec.ofNat 24 (n % 65536)) .bank s =
      .ok (s.pair (BitVec.ofNat 24 (n % 65536)) (BitVec.ofNat 24 ((n + 1) % 65536))) s := by
  rw [← s.succ_bank_ofNat n] at h1 ⊢
  exact read16_of_backed h0 h1

/-- A pointer of three bytes in bank 0 (R133). -/
theorem read24_bank {s : State} {n : Nat} (h0 : Backed s (BitVec.ofNat 24 (n % 65536)))
    (h1 : Backed s (BitVec.ofNat 24 ((n + 1) % 65536))) (h2 : Backed s (BitVec.ofNat 24 ((n + 2) % 65536))) :
    read24 (BitVec.ofNat 24 (n % 65536)) .bank s =
      .ok (addrOf (s.cell (BitVec.ofNat 24 ((n + 2) % 65536)))
        (s.pair (BitVec.ofNat 24 (n % 65536)) (BitVec.ofNat 24 ((n + 1) % 65536)))) s := by
  have hsucc : s.succ (s.succ (BitVec.ofNat 24 (n % 65536)) .bank) .bank = BitVec.ofNat 24 ((n + 2) % 65536) := by
    rw [s.succ_bank_ofNat n, s.succ_bank_ofNat (n + 1)]
  rw [← hsucc] at h2 ⊢
  rw [← s.succ_bank_ofNat n] at h1 ⊢
  exact read24_of_backed h0 h1 h2

end Sys2Proof.Machine

open Sys2Proof.Machine

/-- Settles O22: an operand is an immediate, or an address formed and then a load, and both only draw. -/
theorem operandReadsChangeNothing : Obligations.OperandReadsChangeNothing :=
  fun _ _ _ _ _ h => ⟨operand_onlyDraws h, operand_lt h⟩

/-- Settles O23: the address as a number is in bank 0, and there its successor is that of `DPnext`. -/
theorem directPageAddress : Obligations.DirectPageAddress := by
  intro s k
  have hnum := s.toNat_dpAddr k
  have hlt : (s.dpAddr k).toNat < 65536 := hnum ▸ s.dpNat_lt k.toNat
  refine ⟨addr_eq_ofNat (hnum.trans ?_), s.toNat_succ_dpNext hlt⟩
  unfold State.dpNat
  by_cases h : s.is816 = true
  · simp [State.PageCase, h, State.dNat_of_is816 h]
  · simp [State.PageCase, h, State.dNat_of_not_is816 (Bool.eq_false_of_not_eq_true h)]

/-- Settles O24: each of these modes answers at once, with the address that its function gives. -/
theorem directEffectiveAddresses : Obligations.DirectEffectiveAddresses := by
  intro s r o1 a l
  refine ⟨?dp, ?dpIdx, ?abs, ?absIdx, rfl, fun h => ?longX, ?sr⟩
  case dp => rw [effAddr, s.dpAddr_offsetOf]
  case dpIdx => rw [effAddr, s.dpAddr_offsetOf_add]
  case abs => rw [effAddr, s.dataAddr_eq]
  case absIdx => rw [effAddr, s.addIndex_dataAddr]
  case longX => rw [effAddr, State.addIndex_of_is816 h]
  case sr => rw [effAddr, s.srAddr_eq]

/-- Settles O25: the pointer is read from the bytes named, and the address is made of it as in the direct modes. -/
theorem indirectEffectiveAddresses : Obligations.IndirectEffectiveAddresses := by
  intro s o1
  dsimp only
  refine ⟨?dp, ?dpX, ?dpLong, ?sr⟩
  case dp =>
    rintro p0 _ rfl rfl h0 h1
    have hread := read16_dpNext (s.dpNat_lt o1.toNat) h0 h1
    constructor
    · rw [effAddr, s.dpAddr_offsetOf, hread, Access.bind_ok, s.dataAddr_eq]
    · rw [effAddr, s.dpAddr_offsetOf, hread, Access.bind_ok, s.addIndex_dataAddr]
  case dpX =>
    rintro p0 _ rfl rfl h0 h1
    have hread := read16_dpNext (s.dpNat_lt (o1.toNat + s.x.toNat)) h0 h1
    rw [effAddr, s.dpAddr_offsetOf_add, hread, Access.bind_ok, s.dataAddr_eq]
  case dpLong =>
    intro h816 h0 h1 h2
    have hread := read24_bank h0 h1 h2
    constructor
    · rw [effAddr, State.dpLongAddr_eq h816, hread, Access.bind_ok]
    · rw [effAddr, State.dpLongAddr_eq h816, hread, Access.bind_ok, State.addIndex_of_is816 h816]
  case sr =>
    intro h816 h0 h1
    have hread := read16_bank h0 h1
    rw [effAddr, s.srAddr_eq, hread, Access.bind_ok, State.addIndex_of_is816 h816, s.toNat_dataAddr,
      State.bankNat_of_is816 h816]
end

section
/-! PROOF. Arithmetic (41_arithmetic.md): first what the frames and the words of the results need, then the numbers that the
add, subtract and BCD functions of Flags.lean compute, then ADC and SBC, the read-modify-write instructions in general, and
the index registers. -/

namespace Sys2Proof.Machine

/-! ## Frames of an instruction -/

theorem OnlyDraws.flag {s t : State} (h : OnlyDraws s t) (f : Flag) : t.flag f = s.flag f := by rw [h]; rfl

theorem OnlyDraws.accRead {s t : State} (h : OnlyDraws s t) (w : Width) : t.accRead w = s.accRead w := by rw [h]; rfl

/-- What the accumulator holds since an operand was read, it holds since before. -/
theorem OnlyDraws.accIs {s s1 t : State} {w : Width} {r : Nat} (hd : OnlyDraws s s1) (h : AccIs s1 t w r) :
    AccIs s t w r := by
  have hc : s1.c = s.c := by rw [hd]
  unfold AccIs at *
  rwa [hc] at h

/-- A frame since an operand was read is a frame since before. -/
theorem OnlyDraws.frame {rs : List Reg} {fs : List Flag} {as : List Addr} {s s1 t : State} (hd : OnlyDraws s s1)
    (h : Frame rs fs as s1 t) : Frame rs fs as s t := by
  obtain ⟨hregs, hflags, hmem⟩ := h
  obtain ⟨hregs0, hflags0, hmem0⟩ := Frame.of_onlyDraws hd
  refine ⟨(hregs0.weaken (by simp)).trans hregs, fun f hf => (hflags f hf).trans (hflags0 f (by simp)), fun a ha => ?_⟩
  exact (hmem a (by rwa [hd.cfg])).trans (hmem0 a (by simp))

theorem Frame.reg {rs : List Reg} {fs : List Flag} {as : List Addr} {s t : State} (h : Frame rs fs as s t) (r : Reg)
    (hr : r ∉ rs) : r.Same s t := h.1 r hr

theorem Frame.flag {rs : List Reg} {fs : List Flag} {as : List Addr} {s t : State} (h : Frame rs fs as s t) (f : Flag)
    (hf : f ∉ fs) : t.flag f = s.flag f := h.2.1 f hf

theorem Frame.memBut {rs : List Reg} {fs : List Flag} {as : List Addr} {s t : State} (h : Frame rs fs as s t) :
    MemBut as s t := h.2.2

theorem Frame.weaken {rs rs' : List Reg} {fs fs' : List Flag} {as as' : List Addr} {s t : State} (h : Frame rs fs as s t)
    (hr : ∀ r ∈ rs, r ∈ rs') (hf : ∀ f ∈ fs, f ∈ fs') (ha : ∀ a ∈ as, a ∈ as') : Frame rs' fs' as' s t := by
  obtain ⟨hregs, hflags, hmem⟩ := h
  exact ⟨hregs.weaken hr, fun f hn => hflags f fun hm => hn (hf f hm), fun a hn => hmem a fun b hb => hn b (ha b hb)⟩

/-- Two changes in a row: together they change what either of them may. -/
theorem Frame.trans {rs rs' : List Reg} {fs fs' : List Flag} {as as' : List Addr} {s t u : State} (h : Frame rs fs as s t)
    (h' : Frame rs' fs' as' t u) (hcfg : .cfg ∉ rs := by decide) : Frame (rs ++ rs') (fs ++ fs') (as ++ as') s u := by
  have hc : t.cfg = s.cfg := h.reg .cfg hcfg
  obtain ⟨hregs, hflags, hmem⟩ := h.weaken (rs' := rs ++ rs') (fs' := fs ++ fs') (as' := as ++ as') (by simp +contextual)
    (by simp +contextual) (by simp +contextual)
  obtain ⟨hregs', hflags', hmem'⟩ := h'.weaken (rs' := rs ++ rs') (fs' := fs ++ fs') (as' := as ++ as')
    (by simp +contextual) (by simp +contextual) (by simp +contextual)
  exact ⟨hregs.trans hregs', hflags.trans hflags', fun a ha => (hmem' a (hc.symm ▸ ha)).trans (hmem a ha)⟩

/-- What an instruction changes before PC moves, and PC. -/
theorem Frame.then_advance {rs : List Reg} {fs : List Flag} {as : List Addr} {s t : State} (n : Nat)
    (h : Frame rs fs as s t) : Frame (rs ++ [.pc]) fs as s (t.advance n) :=
  (h.weaken (fun _ hr => List.mem_append_left _ hr) (fun _ hf => hf) fun _ ha => ha).advance n (by simp)

theorem frame_accWrite (s : State) (w : Width) (v : Word) : Frame [.c] [] [] s (s.accWrite w v) := by
  refine ⟨fun q hq => ?_, .of_p (by simp), .of_mem (by simp) (by simp)⟩
  cases q <;> simp_all [Reg.Same]

theorem frame_setFlag (s : State) (f : Flag) (b : Bool) : Frame [] [f] [] s (s.setFlag f b) := by
  refine ⟨fun q _ => by cases q <;> rfl, fun g hg => ?_, .of_mem rfl rfl⟩
  rw [State.flag_setFlag, if_neg (by simpa using hg)]

theorem frame_setNZ (s : State) (w : Width) (v : Word) : Frame [] [.n, .z] [] s (s.setNZ w v) := by
  refine ⟨fun q _ => by cases q <;> rfl, fun g hg => ?_, .of_mem rfl rfl⟩
  obtain ⟨hn, hz⟩ : g ≠ .n ∧ g ≠ .z := by simpa using hg
  rw [State.flag_setNZ, if_neg hz, if_neg hn]

/-- `SetNZ` of any word tells of the number of its low `w` bits. -/
theorem nz_setNZ (s : State) (w : Width) (v : Word) : NZ (s.setNZ w v) w (v.toNat % modulus w) := by
  constructor
  · rw [State.flag_setNZ, if_neg (by decide), if_pos rfl, msb_eq_testBit, modulus, Nat.testBit_mod_two_pow]
    cases w <;> simp
  · rw [State.flag_setNZ, if_pos rfl, trunc_beq_zero]

/-- `SetNZ` of data of its width tells of its number. -/
theorem nz_setNZ_of_lt {w : Width} {v : Word} (h : v.toNat < modulus w) (s : State) : NZ (s.setNZ w v) w v.toNat := by
  have := nz_setNZ s w v
  rwa [Nat.mod_eq_of_lt h] at this

/-! ## Sums and differences as numbers (R162, R170) -/

theorem toNat_addResult (w : Width) (a m : Word) (c : Bool) :
    (addResult w a m c).toNat = (a.toNat + m.toNat + c.toNat) % modulus w := toNat_ofNatMod w _

theorem toNat_subResult (w : Width) (a m : Word) (c : Bool) :
    (subResult w a m c).toNat = (((a.toNat : Int) - m.toNat - (1 - (c.toNat : Int))) % (modulus w : Int)).toNat :=
  toNat_ofIntMod w _

theorem addResult_lt (w : Width) (a m : Word) (c : Bool) : (addResult w a m c).toNat < modulus w := by
  rw [toNat_addResult]; exact Nat.mod_lt _ (modulus_pos w)

theorem subResult_lt (w : Width) (a m : Word) (c : Bool) : (subResult w a m c).toNat < modulus w := by
  have hpos : (0 : Int) < modulus w := by exact_mod_cast modulus_pos w
  have := Int.emod_lt_of_pos ((a.toNat : Int) - m.toNat - (1 - (c.toNat : Int))) hpos
  rw [toNat_subResult]; omega

/-- The sign bit of data of width `w` says whether its number is in the upper half. -/
theorem msb_eq_decide {w : Width} {v : Word} (h : v.toNat < modulus w) : msb w v = decide (modulus w / 2 ≤ v.toNat) := by
  rw [msb_eq_testBit, Nat.testBit_eq_decide_div_mod_eq, decide_eq_decide]
  cases w <;> simp only [modulus_w8, modulus_w16, widthBits_w8, widthBits_w16] at h ⊢ <;> omega

/-- The two conditions of the overflow formula of ADC, in numbers: operands of one sign, the result of the other. -/
theorem addOverflow_iff {w : Width} {a m : Word} {c : Bool} (ha : a.toNat < modulus w) (hm : m.toNat < modulus w) :
    addOverflow w a m c = true ↔
      (modulus w / 2 ≤ a.toNat ↔ modulus w / 2 ≤ m.toNat) ∧
        ¬(modulus w / 2 ≤ (a.toNat + m.toNat + c.toNat) % modulus w ↔ modulus w / 2 ≤ a.toNat) := by
  rw [addOverflow, msb_eq_decide ha, msb_eq_decide hm, msb_eq_decide (addResult_lt w a m c), toNat_addResult]
  simp

/-- The two conditions of the overflow formula of SBC: operands of different signs, the result not of the sign of the
first. -/
theorem subOverflow_iff {w : Width} {a m : Word} {c : Bool} (ha : a.toNat < modulus w) (hm : m.toNat < modulus w) :
    subOverflow w a m c = true ↔
      ¬(modulus w / 2 ≤ a.toNat ↔ modulus w / 2 ≤ m.toNat) ∧
        ¬(modulus w / 2 ≤ (((a.toNat : Int) - m.toNat - (1 - (c.toNat : Int))) % (modulus w : Int)).toNat ↔
          modulus w / 2 ≤ a.toNat) := by
  rw [subOverflow, msb_eq_decide ha, msb_eq_decide hm, msb_eq_decide (subResult_lt w a m c), toNat_subResult]
  simp

/-! ## Digits as numbers (R161) -/

theorem bcdValid_bcdOf : ∀ k n, bcdValid k (bcdOf k n) = true
  | 0, _ => rfl
  | k + 1, n => by
    have hdigit : (n % 10 + 16 * bcdOf k (n / 10)) % 16 = n % 10 := by omega
    have hrest : (n % 10 + 16 * bcdOf k (n / 10)) / 16 = bcdOf k (n / 10) := by omega
    rw [bcdOf, bcdValid, hdigit, hrest, bcdValid_bcdOf k, Bool.and_true, decide_eq_true_eq]
    omega

/-- The digits written denote the number, as far as there is room for it. -/
theorem bcdVal_bcdOf : ∀ k n, bcdVal k (bcdOf k n) = n % 10 ^ k
  | 0, n => by simp [bcdVal, Nat.mod_one]
  | k + 1, n => by
    have hdigit : (n % 10 + 16 * bcdOf k (n / 10)) % 16 = n % 10 := by omega
    have hrest : (n % 10 + 16 * bcdOf k (n / 10)) / 16 = bcdOf k (n / 10) := by omega
    rw [bcdOf, bcdVal, hdigit, hrest, bcdVal_bcdOf k, pow_succ', Nat.mod_mul]

theorem bcdVal_lt : ∀ k v, bcdValid k v = true → bcdVal k v < 10 ^ k
  | 0, _, _ => by simp [bcdVal]
  | k + 1, v, h => by
    obtain ⟨hdigit, hrest⟩ : v % 16 ≤ 9 ∧ bcdValid k (v / 16) = true := by simpa [bcdValid] using h
    have := bcdVal_lt k _ hrest
    rw [bcdVal, pow_succ]
    omega

/-- Valid digits are how their number is written. -/
theorem bcdOf_bcdVal : ∀ k v, v < 16 ^ k → bcdValid k v = true → bcdOf k (bcdVal k v) = v
  | 0, v, hv, _ => by simp [bcdOf] at hv ⊢; omega
  | k + 1, v, hv, h => by
    obtain ⟨hdigit, hrest⟩ : v % 16 ≤ 9 ∧ bcdValid k (v / 16) = true := by simpa [bcdValid] using h
    have hlow : (v % 16 + 10 * bcdVal k (v / 16)) % 10 = v % 16 := by omega
    have hhigh : (v % 16 + 10 * bcdVal k (v / 16)) / 10 = bcdVal k (v / 16) := by omega
    have hlt : v / 16 < 16 ^ k := by rw [pow_succ] at hv; omega
    rw [bcdVal, bcdOf, hlow, hhigh, bcdOf_bcdVal k _ hlt hrest]
    omega

/-- Digits of width `w` as data of that width. -/
theorem toNat_ofNat_bcdOf (w : Width) (n : Nat) : (BitVec.ofNat 16 (bcdOf (bcdDigits w) n)).toNat = bcdOf (bcdDigits w) n := by
  have := bcdOf_lt_modulus w n
  rw [BitVec.toNat_ofNat, Nat.mod_eq_of_lt]
  cases w <;> simp at this ⊢ <;> omega

theorem toNat_bcdAddResult (w : Width) (a m : Word) (c : Bool) :
    (bcdAddResult w a m c).toNat =
      bcdOf (widthBits w / 4) ((bcdVal (widthBits w / 4) a.toNat + bcdVal (widthBits w / 4) m.toNat + c.toNat) %
        10 ^ (widthBits w / 4)) := toNat_ofNat_bcdOf w _

theorem toNat_bcdSubResult (w : Width) (a m : Word) (c : Bool) :
    (bcdSubResult w a m c).toNat =
      bcdOf (widthBits w / 4) (((bcdVal (widthBits w / 4) a.toNat : Int) - bcdVal (widthBits w / 4) m.toNat -
        (1 - (c.toNat : Int))) % (10 ^ (widthBits w / 4) : Nat)).toNat := toNat_ofNat_bcdOf w _

theorem bcdAddResult_lt (w : Width) (a m : Word) (c : Bool) : (bcdAddResult w a m c).toNat < modulus w := by
  rw [toNat_bcdAddResult]; exact bcdOf_lt_modulus w _

theorem bcdSubResult_lt (w : Width) (a m : Word) (c : Bool) : (bcdSubResult w a m c).toNat < modulus w := by
  rw [toNat_bcdSubResult]; exact bcdOf_lt_modulus w _

/-! ## ADC and SBC -/

/-- The end of a binary operation whose result `r` is data of its width. -/
theorem binaryResult_spec (s : State) {w : Width} {r : Word} (hr : r.toNat < modulus w) (c v : Bool) :
    let t := (((s.setFlag .c c).setFlag .v v).accWrite w r).setNZ w r
    AccIs s t w r.toNat ∧ t.flag .c = c ∧ t.flag .v = v ∧ NZ t w r.toNat ∧ Frame [.c] [.n, .v, .z, .c] [] s t := by
  intro t
  have hframe := (((frame_setFlag s .c c).trans (frame_setFlag _ .v v)).trans (frame_accWrite _ w r)).trans
    (frame_setNZ _ w r)
  refine ⟨accIs_of_accWrite rfl hr ?acc, by simp [t], by simp [t], nz_setNZ_of_lt hr _,
    hframe.weaken (by simp) (by simp) (by simp)⟩
  cases w <;> rfl

section
variable {i : Instr} {src : Source} {effect : Word → State → State} {s s1 : State} {m r : Word} {c v : Bool}

/-- An instruction that reads an operand at the width of the accumulator and ends as a binary ADC or SBC. -/
theorem exec_binary (hexec : exec i s = withOperand src s.wm effect s)
    (hlen : (encode s.wm s.wx i).length = src.length s.wm) (hop : operand src s.wm s = .ok m s1)
    (heffect : effect m s1 = (((s1.setFlag .c c).setFlag .v v).accWrite s.wm r).setNZ s.wm r)
    (hr : r.toNat < modulus s.wm) :
    ∃ t, exec i s = .next t ∧ AccIs s t s.wm r.toNat ∧ t.flag .c = c ∧ t.flag .v = v ∧ NZ t s.wm r.toNat ∧
      Frame [.c, .pc] [.n, .v, .z, .c] [] s t ∧ Advances i s t := by
  have hdraws := operand_onlyDraws hop
  obtain ⟨hacc, hc, hv, hnz, hframe⟩ := binaryResult_spec s1 hr c v
  rw [← heffect] at hacc hc hv hnz hframe
  have hframe := hdraws.frame hframe
  exact ⟨_, hexec.trans (withOperand_of_ok hop), hdraws.accIs hacc, hc, hv, hnz, hframe.then_advance _,
    advances_advance hlen (hframe.reg .pc (by decide))⟩

/-- An instruction that reads an operand at the width of the accumulator and ends as a decimal ADC or SBC. -/
theorem exec_decimal (hexec : exec i s = withOperand src s.wm effect s)
    (hlen : (encode s.wm s.wx i).length = src.length s.wm) (hop : operand src s.wm s = .ok m s1)
    (hvalid : (validBcd s.wm (s1.accRead s.wm) && validBcd s.wm m) = true → effect m s1 = s1.decimalResult s.wm r c)
    (hinvalid : ¬(validBcd s.wm (s1.accRead s.wm) && validBcd s.wm m) = true → effect m s1 = s1.decimalInvalid s.wm)
    (hr : r.toNat < modulus s.wm) :
    ∃ t, exec i s = .next t ∧ Frame [.c, .pc] [.n, .v, .z, .c] [] s t ∧ Advances i s t ∧
      (∃ free < modulus s.wm, AccIs s t s.wm free) ∧
      (validBcd s.wm (s1.accRead s.wm) = true → validBcd s.wm m = true →
        AccIs s t s.wm r.toNat ∧ t.flag .c = c ∧ (s.cfg.variant ≠ .v6502 → NZ t s.wm r.toNat)) := by
  have hdraws := operand_onlyDraws hop
  refine ⟨_, hexec.trans (withOperand_of_ok hop), ?_⟩
  by_cases hv : (validBcd s.wm (s1.accRead s.wm) && validBcd s.wm m) = true
  case pos =>
    obtain ⟨hframe, hacc, hc, hnz⟩ := decimalResult_spec s1 s.wm r c
    rw [← hvalid hv] at hframe hacc hc hnz
    have hframe := hdraws.frame hframe
    have hacc := hdraws.accIs (accIs_of_accWrite rfl hr hacc)
    refine ⟨hframe.then_advance _, advances_advance hlen (hframe.reg .pc (by decide)), ⟨_, hr, hacc⟩, fun _ _ => ?_⟩
    refine ⟨hacc, hc, fun hvar => ?_⟩
    obtain ⟨hn, hz⟩ := hnz (hdraws.cfg ▸ hvar)
    exact nz_of_setNZ rfl hr hn hz
  case neg =>
    obtain ⟨hframe, hacc⟩ := decimalInvalid_spec s1 s.wm
    rw [← hinvalid hv] at hframe hacc
    have hframe := hdraws.frame hframe
    have hfree := drawData_lt s1 s.wm
    have hacc := hdraws.accIs (accIs_of_accWrite rfl hfree hacc)
    refine ⟨hframe.then_advance _, advances_advance hlen (hframe.reg .pc (by decide)), ⟨_, hfree, hacc⟩, fun ha hm => ?_⟩
    exact absurd (by rw [ha, hm]; rfl) hv
end

/-! ## Read-modify-write instructions (R164, R167; 42_binary.md R185 to R189) -/

/-- What a read-modify-write instruction does to the flags: n and z tell of the result `r`, c becomes `c`, and nothing else
changes. -/
def SetsNZC (w : Width) (r : Nat) (c : Bool) (s t : State) : Prop :=
  NZ t w r ∧ t.flag .c = c ∧ Frame [] [.n, .z, .c] [] s t

/-- In every form of `op` the machine computes `result` and `flags` from the operand and the carry, and these are the result
and the flags that the statements give the instruction in numbers. -/
structure RmwOp.ComputedBy (op : RmwOp) (result : Width → Word → Bool → Word) (flags : Width → Word → Bool → State → State) :
    Prop where
  exec_form : ∀ {pl i}, rmwForm op pl = some i → ∀ s, exec i s = modify pl s.wm (fun v => result s.wm v (s.flag .c))
    (fun v t => flags s.wm v (s.flag .c) t) s ∧ (encode s.wm s.wx i).length = pl.length
  result_toNat : ∀ {w} {v : Word}, v.toNat < modulus w → ∀ c, (result w v c).toNat = rmwNat op w v.toNat c
  result_lt : ∀ {w} {v : Word}, v.toNat < modulus w → ∀ c, rmwNat op w v.toNat c < modulus w
  sets_flags : ∀ {w} {v : Word}, v.toNat < modulus w → ∀ t,
    SetsNZC w (rmwNat op w v.toNat (t.flag .c)) (rmwCarry op w v.toNat (t.flag .c)) t (flags w v (t.flag .c) t)

/-- The accumulator after a write is a matter of the accumulator alone. -/
theorem accWrite_c_congr {s t : State} (h : t.c = s.c) (w : Width) (v : Word) : (t.accWrite w v).c = (s.accWrite w v).c := by
  cases w <;> simp [State.accWrite, h]

theorem accRead_lt (s : State) (w : Width) : (s.accRead w).toNat < modulus w := by
  rw [← accNat_eq_accRead]; exact Nat.mod_lt _ (modulus_pos w)

theorem lowByte_eq_ofNat (v : Word) : lowByte v = BitVec.ofNat 8 v.toNat := by
  apply BitVec.eq_of_toNat_eq; simp

theorem highByte_eq_ofNat (v : Word) : highByte v = BitVec.ofNat 8 (v.toNat / 256) := by
  have := v.isLt
  apply BitVec.eq_of_toNat_eq
  rw [toNat_highByte, BitVec.toNat_ofNat, Nat.mod_eq_of_lt (by omega)]

/-- What a store of a datum leaves at its place. -/
theorem storedAt_storedState (w : Width) (ea : Ea) (v : Word) (s : State) :
    StoredAt s (storedState w ea.addr ea.wrap v s) w ea v.toNat := by
  rw [StoredAt, ← lowByte_eq_ofNat, ← highByte_eq_ofNat]
  exact stored_storedState w ea.addr ea.wrap v s

/-- A datum stays stored while no byte of memory changes. -/
theorem StoredAt.of_memBut {s t u : State} {w : Width} {ea : Ea} {r : Nat} (h : StoredAt s t w ea r) (hm : MemBut [] t u) :
    StoredAt s u w ea r :=
  ⟨(hm _ (by simp)).trans h.1, fun hw => (hm _ (by simp)).trans (h.2 hw)⟩

theorem OnlyDraws.storedAt {s s1 t : State} {w : Width} {ea : Ea} {r : Nat} (hd : OnlyDraws s s1)
    (h : StoredAt s1 t w ea r) : StoredAt s t w ea r := by
  have hcell : ∀ a, s1.cell a = s.cell a := State.cell_congr hd.cfg hd.mem
  simpa only [StoredAt, Stored, hd.cfg, hcell, State.succ_congr hd.cfg] using h

theorem OnlyDraws.storedBytes {s s1 : State} (hd : OnlyDraws s s1) (w : Width) (a : Addr) (wrap : Wrap) :
    storedBytes w a wrap s1 = storedBytes w a wrap s := by
  cases w <;> simp [Machine.storedBytes, State.succ_congr hd.cfg]

section
variable {op : RmwOp} {result : Width → Word → Bool → Word} {flags : Width → Word → Bool → State → State}

/-- The accumulator form: the flags from the operand, then the result to the accumulator. -/
theorem RmwOp.ComputedBy.rmwAccumulator (h : op.ComputedBy result flags) : RmwAccumulator op := by
  intro s i hform
  obtain ⟨hexec, hlen⟩ := h.exec_form hform s
  have hlt := accRead_lt s s.wm
  obtain ⟨⟨hn, hz⟩, hc, hframe⟩ := h.sets_flags hlt s
  dsimp only
  rw [accNat_eq_accRead]
  refine ⟨_, hexec, ?acc, ⟨?n, ?z⟩, ?c, ?frame, advances_advance hlen ?pc⟩
  case acc =>
    exact accIs_of_accWrite (h.result_toNat hlt _) (h.result_lt hlt _) (accWrite_c_congr (hframe.reg .c (by decide)) _ _)
  case n => simpa using hn
  case z => simpa using hz
  case c => simpa using hc
  case frame => exact (hframe.trans (frame_accWrite ..)).then_advance 1
  case pc => exact (State.accWrite_pc ..).trans (hframe.reg .pc (by decide))

/-- A memory form: the operand is read, the result stored to the same place, and the flags set after it. -/
theorem RmwOp.ComputedBy.rmwMemory (h : op.ComputedBy result flags) : RmwMemory op := by
  intro s s1 s2 i md ea v hform hea hload
  obtain ⟨hexec, hlen⟩ := h.exec_form hform s
  have hlt := load_lt hload
  have hdraws := (effAddr_onlyDraws hea).trans (load_onlyDraws hload)
  have hstored := storedAt_storedState s.wm ea (result s.wm v (s.flag .c)) s2
  have hmem := frame_storedState s.wm ea.addr ea.wrap (result s.wm v (s.flag .c)) s2
  have hnext := hexec.trans (modify_mem_of_ok hea hload)
  generalize storedState s.wm ea.addr ea.wrap (result s.wm v (s.flag .c)) s2 = u at hstored hmem hnext
  rw [h.result_toNat hlt] at hstored
  have hcarry : u.flag .c = s.flag .c := (hmem.flag .c (by decide)).trans (hdraws.flag .c)
  have hflags := h.sets_flags hlt u
  rw [hcarry] at hflags
  obtain ⟨hnz, hc, hframe⟩ := hflags
  have hall := hdraws.frame (hmem.trans hframe)
  refine ⟨_, hnext, ?stored, hnz, hc, ?frame, advances_advance hlen (hall.reg .pc (by decide))⟩
  case stored => exact hdraws.storedAt (hstored.of_memBut hframe.memBut)
  case frame => simpa [hdraws.storedBytes] using hall.then_advance md.length
end

/-- INC and DEC: n and z of the result, and c kept. -/
theorem setsNZC_setNZ {w : Width} {v : Word} {r : Nat} (hv : v.toNat = r) (hr : r < modulus w) (t : State) :
    SetsNZC w r (t.flag .c) t (t.setNZ w v) := by
  subst hv
  exact ⟨nz_setNZ_of_lt hr t, by simp, (frame_setNZ t w v).weaken (by simp) (by simp) (by simp)⟩

theorem toNat_trunc_add_one (w : Width) (v : Word) : (trunc w (v + 1)).toNat = (v.toNat + 1) % modulus w := by
  have one16 : (1 : Word).toNat = 1 := rfl
  rw [toNat_trunc, BitVec.toNat_add, one16]
  cases w <;> simp only [modulus_w8, modulus_w16] <;> omega

/-- Counting down adds `2^w - 1`. -/
theorem toNat_trunc_sub_one (w : Width) (v : Word) : (trunc w (v - 1)).toNat = (v.toNat + modulus w - 1) % modulus w := by
  have one16 : (1 : Word).toNat = 1 := rfl
  rw [toNat_trunc, BitVec.toNat_sub, one16]
  cases w <;> simp only [modulus_w8, modulus_w16] <;> omega

theorem inc_computedBy :
    RmwOp.inc.ComputedBy (fun w v _ => trunc w (v + 1)) (fun w v _ t => t.setNZ w (trunc w (v + 1))) where
  exec_form hform s := exec_incForm hform s
  result_toNat _ _ := toNat_trunc_add_one _ _
  result_lt _ _ := Nat.mod_lt _ (modulus_pos _)
  sets_flags {w v} _ t := setsNZC_setNZ (toNat_trunc_add_one w v) (Nat.mod_lt _ (modulus_pos w)) t

theorem dec_computedBy :
    RmwOp.dec.ComputedBy (fun w v _ => trunc w (v - 1)) (fun w v _ t => t.setNZ w (trunc w (v - 1))) where
  exec_form hform s := exec_decForm hform s
  result_toNat _ _ := toNat_trunc_sub_one _ _
  result_lt _ _ := Nat.mod_lt _ (modulus_pos _)
  sets_flags {w v} _ t := setsNZC_setNZ (toNat_trunc_sub_one w v) (Nat.mod_lt _ (modulus_pos w)) t

/-! ## The index registers (R165, R166, R168, R169) -/

/-- The part of the state that an index register is. -/
def idxPart : IdxReg → Reg
  | .x => .x
  | .y => .y

theorem frame_idxWrite (s : State) (r : IdxReg) (w : Width) (v : Word) : Frame [idxPart r] [] [] s (s.idxWrite r w v) := by
  refine ⟨fun q hq => ?_, .of_p (by simp), .of_mem (by simp) (by simp)⟩
  cases r <;> cases q <;> first
    | rfl
    | exact absurd (List.mem_singleton_self _) hq

@[simp] theorem idx_idxWrite (s : State) (r : IdxReg) (w : Width) (v : Word) : (s.idxWrite r w v).idx r = trunc w v := by
  cases r <;> rfl

/-- What INX, INY, DEX and DEY do once the new value `v` is known, of which the register takes the low `WX` bits. -/
theorem idxStep_spec {i : Instr} {s : State} {r : IdxReg} {v : Word}
    (hexec : exec i s = .next (((s.idxWrite r s.wx v).setNZ s.wx v).advance 1)) (hlen : (encode s.wm s.wx i).length = 1) :
    ∃ t, exec i s = .next t ∧ (t.idx r).toNat = v.toNat % modulus s.wx ∧ NZ t s.wx (t.idx r).toNat ∧
      Frame [idxPart r, .pc] [.n, .z] [] s t ∧ Advances i s t := by
  have hframe := (frame_idxWrite s r s.wx v).trans (frame_setNZ _ s.wx v) (by cases r <;> decide)
  have hidx : ((((s.idxWrite r s.wx v).setNZ s.wx v).advance 1).idx r).toNat = v.toNat % modulus s.wx := by
    rw [← toNat_trunc, ← idx_idxWrite s r s.wx v]; cases r <;> rfl
  refine ⟨_, hexec, hidx, hidx ▸ nz_setNZ _ s.wx v, hframe.then_advance 1, advances_advance hlen ?_⟩
  exact hframe.reg .pc (by cases r <;> decide)

theorem toNat_add_one_mod (v : Word) (w : Width) : (v + 1).toNat % modulus w = (v.toNat + 1) % modulus w := by
  rw [← toNat_trunc, toNat_trunc_add_one]

/-- The statement counts an index down by adding `2^16 - 1`, which is `-1` at either width. -/
theorem toNat_sub_one_mod (v : Word) (w : Width) : (v - 1).toNat % modulus w = (v.toNat + 65535) % modulus w := by
  rw [← toNat_trunc, toNat_trunc_sub_one]
  cases w <;> simp only [modulus_w8, modulus_w16] <;> omega

end Sys2Proof.Machine

open Sys2Proof.Machine

/-- Settles O26: the result is the number of the statement, and `addCarry` and `addOverflow` are its formulas for c and
v. -/
theorem adcBinary : Obligations.AdcBinary := by
  intro s s1 src i m hform hdec hop
  obtain ⟨hexec, hlen⟩ := exec_adcForm hform s
  have hdraws := operand_onlyDraws hop
  dsimp only
  rw [accNat_eq_accRead, ← hdraws.accRead, ← hdraws.flag .c, ← toNat_addResult]
  exact exec_binary hexec hlen hop (State.adc_of_binary ((hdraws.flag .d).trans hdec)) (addResult_lt ..)

/-- Settles O27, as O26 with `subResult`, `subCarry` and `subOverflow`. -/
theorem sbcBinary : Obligations.SbcBinary := by
  intro s s1 src i m hform hdec hop
  obtain ⟨hexec, hlen⟩ := exec_sbcForm hform s
  have hdraws := operand_onlyDraws hop
  dsimp only
  rw [accNat_eq_accRead, ← hdraws.accRead, ← hdraws.flag .c, ← toNat_subResult]
  exact exec_binary hexec hlen hop (State.sbc_of_binary ((hdraws.flag .d).trans hdec)) (subResult_lt ..)

/-- Settles O28: each sign bit says which half its number lies in, and the rest is arithmetic of the two widths. -/
theorem overflowIsSigned : Obligations.OverflowIsSigned := by
  intro w a m c ha hm
  dsimp only
  have hc : c.toNat ≤ 1 := c.toNat_le
  constructor
  · rw [Bool.eq_iff_iff, addOverflow_iff ha hm, decide_eq_true_iff]
    cases w <;> simp only [modulus_w8, modulus_w16] at ha hm ⊢ <;> omega
  · rw [Bool.eq_iff_iff, subOverflow_iff ha hm, decide_eq_true_iff]
    cases w <;> simp only [modulus_w8, modulus_w16] at ha hm ⊢ <;> omega

/-- Settles O29: by whether the operands are valid BCD (`exec_decimal`), the digits of the result being those of the sum. -/
theorem adcDecimal : Obligations.AdcDecimal := by
  intro s s1 src i m hform hdec hop
  obtain ⟨hexec, hlen⟩ := exec_adcForm hform s
  have hdraws := operand_onlyDraws hop
  dsimp only
  rw [accNat_eq_accRead, ← hdraws.accRead, ← hdraws.flag .c, ← toNat_bcdAddResult]
  have hd := (hdraws.flag .d).trans hdec
  exact exec_decimal hexec hlen hop (State.adc_of_valid hd) (State.adc_of_invalid hd) (bcdAddResult_lt ..)

/-- Settles O30, as O29 with the difference. -/
theorem sbcDecimal : Obligations.SbcDecimal := by
  intro s s1 src i m hform hdec hop
  obtain ⟨hexec, hlen⟩ := exec_sbcForm hform s
  have hdraws := operand_onlyDraws hop
  dsimp only
  rw [accNat_eq_accRead, ← hdraws.accRead, ← hdraws.flag .c, ← toNat_bcdSubResult]
  have hd := (hdraws.flag .d).trans hdec
  exact exec_decimal hexec hlen hop (State.sbc_of_valid hd) (State.sbc_of_invalid hd) (bcdSubResult_lt ..)

/-- Settles O31: both directions go digit by digit. -/
theorem bcdDigits : Obligations.BcdDigits := by
  refine ⟨fun k n hn => ?_, fun k v hv hvalid => ?_⟩
  · exact ⟨bcdValid_bcdOf k n, (bcdVal_bcdOf k n).trans (Nat.mod_eq_of_lt hn), bcdOf_lt k n⟩
  · exact ⟨bcdOf_bcdVal k v hv hvalid, bcdVal_lt k v hvalid⟩

/-- Settles O32: what `ComputedBy` gives for every read-modify-write instruction, with the results of INC and DEC. -/
theorem incrementDecrement : Obligations.IncrementDecrement := by
  intro op hop
  obtain rfl | rfl : op = .inc ∨ op = .dec := by simpa using hop
  · exact ⟨inc_computedBy.rmwAccumulator, inc_computedBy.rmwMemory⟩
  · exact ⟨dec_computedBy.rmwAccumulator, dec_computedBy.rmwMemory⟩

/-- Settles O33: one step of an index register, with its new value as a number. -/
theorem incrementDecrementIndex : Obligations.IncrementDecrementIndex := by
  intro s
  refine ⟨?inx, ?iny, ?dex, ?dey⟩
  case inx => rw [← toNat_add_one_mod]; exact idxStep_spec (r := .x) rfl rfl
  case iny => rw [← toNat_add_one_mod]; exact idxStep_spec (r := .y) rfl rfl
  case dex => rw [← toNat_sub_one_mod]; exact idxStep_spec (r := .x) rfl rfl
  case dey => rw [← toNat_sub_one_mod]; exact idxStep_spec (r := .y) rfl rfl
end

section
/-! PROOF. Binary operations (42_binary.md): the shared end of an instruction that reads an operand, then AND, EOR and ORA,
BIT, the shifts and rotates as read-modify-write instructions, and TRB and TSB. -/

namespace Sys2Proof.Machine

/-- An instruction that reads an operand: what its effect changes since the operand was read, the instruction changes, and
PC moves past it. -/
theorem exec_withOperand {i : Instr} {src : Source} {w : Width} {effect : Word → State → State} {s s1 : State} {m : Word}
    {rs : List Reg} {fs : List Flag} (hexec : exec i s = withOperand src w effect s)
    (hlen : (encode s.wm s.wx i).length = src.length w) (hop : operand src w s = .ok m s1)
    (hframe : Frame rs fs [] s1 (effect m s1)) (hpc : Reg.pc ∉ rs) :
    let t := (effect m s1).advance (src.length w)
    exec i s = .next t ∧ Frame (rs ++ [.pc]) fs [] s t ∧ Advances i s t := by
  have hall := (operand_onlyDraws hop).frame hframe
  exact ⟨hexec.trans (withOperand_of_ok hop), hall.then_advance _, advances_advance hlen (hall.reg .pc hpc)⟩

/-! ## AND, EOR and ORA (R181, R183, R184) -/

/-- The end of a logical operation whose result `r` is data of its width (R180). -/
theorem logicalResult_spec (s : State) {w : Width} {r : Word} (hr : r.toNat < modulus w) :
    let t := (s.accWrite w r).setNZ w r
    AccIs s t w r.toNat ∧ NZ t w r.toNat ∧ Frame [.c] [.n, .z] [] s t :=
  ⟨accIs_of_accWrite rfl hr (State.setNZ_c ..), nz_setNZ_of_lt hr _, (frame_accWrite s w r).trans (frame_setNZ _ w r)⟩

theorem exec_logical {f : Word → Word → Word} {i : Instr} {src : Source} {s s1 : State} {m : Word} {r : Nat}
    (hexec : exec i s = logical f src s) (hlen : (encode s.wm s.wx i).length = src.length s.wm)
    (hop : operand src s.wm s = .ok m s1) (hresult : (f (s.accRead s.wm) m).toNat = r) (hr : r < modulus s.wm) :
    ∃ t, exec i s = .next t ∧ AccIs s t s.wm r ∧ NZ t s.wm r ∧ Frame [.c, .pc] [.n, .z] [] s t ∧ Advances i s t := by
  have hdraws := operand_onlyDraws hop
  subst hresult
  rw [← hdraws.accRead] at hr ⊢
  obtain ⟨hacc, hnz, hframe⟩ := logicalResult_spec s1 hr
  obtain ⟨hnext, hall, hadv⟩ := exec_withOperand hexec hlen hop hframe (by decide)
  exact ⟨_, hnext, hdraws.accIs hacc, hnz, hall, hadv⟩

/-! ## The bit test (R182, R190, R191) -/

theorem frame_testFlag (s : State) (a m : Word) : Frame [] [.z] [] s (s.testFlag a m) := frame_setFlag s .z _

theorem and_beq_zero (a m : Word) : (a &&& m == 0) = decide (a.toNat &&& m.toNat = 0) := by
  rw [Bool.eq_iff_iff, beq_iff_eq, decide_eq_true_iff, ← BitVec.toNat_and, ← BitVec.toNat_inj]; rfl

/-- The test of BIT, TRB and TSB, in numbers; no other flag is written. -/
theorem State.flag_testFlag (s : State) (a m : Word) (f : Flag) :
    (s.testFlag a m).flag f = if f = .z then decide (a.toNat &&& m.toNat = 0) else s.flag f := by
  rw [State.testFlag, State.flag_setFlag, and_beq_zero]

/-- The immediate form of BIT beside the machine, as `exec_bitForm` of the memory forms. -/
theorem exec_bitImm (k : Word) (s : State) :
    exec (.bitImm k) s = opBitImm k s ∧ (encode s.wm s.wx (.bitImm k)).length = (Source.imm k).length s.wm :=
  ⟨rfl, by cases s.wm <;> rfl⟩

/-- The flags of BIT with a memory operand. -/
theorem bitFlags_spec (s : State) (w : Width) (a m : Word) :
    let t := s.bitFlags w a m
    t.flag .n = m.toNat.testBit (widthBits w - 1) ∧ t.flag .v = m.toNat.testBit (widthBits w - 2) ∧
      t.flag .z = decide (a.toNat &&& m.toNat = 0) ∧ Frame [] [.n, .v, .z] [] s t := by
  intro t
  have hframe := ((frame_setFlag s .n (m.getLsbD (widthBits w - 1))).trans
    (frame_setFlag _ .v (m.getLsbD (widthBits w - 2)))).trans (frame_testFlag _ a m)
  refine ⟨?n, ?v, ?z, hframe⟩
  case n | v => simp [t, State.bitFlags, State.flag_testFlag, BitVec.testBit_toNat]
  case z => simp [t, State.bitFlags, State.flag_testFlag]

/-! ## Shifts and rotates in numbers (R186 to R189) -/

theorem toNat_aslResult (w : Width) (v : Word) : (aslResult w v).toNat = v.toNat * 2 % modulus w := by
  rw [aslResult, toNat_trunc, BitVec.toNat_shiftLeft, Nat.shiftLeft_eq]
  cases w <;> simp only [modulus_w8, modulus_w16] <;> omega

theorem toNat_lsrResult (v : Word) : (lsrResult v).toNat = v.toNat / 2 := by
  rw [lsrResult, BitVec.toNat_ushiftRight, Nat.shiftRight_eq_div_pow, pow_one]

/-- A set carry is a bit of its own, `2^n` of the number. -/
theorem toNat_carryBit {n : Nat} (hn : n < 16) (c : Bool) :
    (if c then 1#16 <<< n else 0 : Word).toNat = 2 ^ n * c.toNat := by
  have hfits : 2 ^ n < 2 ^ 16 := Nat.pow_lt_pow_right (by decide) hn
  cases c
  case false => simp
  case true => simpa [Nat.shiftLeft_eq] using hfits

/-- ROL: the shift leaves the lowest bit free for the carry. -/
theorem toNat_rolResult (w : Width) (v : Word) (c : Bool) : (rolResult w v c).toNat = v.toNat * 2 % modulus w + c.toNat := by
  have hcarry : (if c then 1 else 0 : Word).toNat = c.toNat := by cases c <;> rfl
  have heven : v.toNat * 2 % modulus w = 2 ^ 1 * (v.toNat * 2 % modulus w / 2) := by
    cases w <;> simp only [modulus_w8, modulus_w16] <;> omega
  have hbit : c.toNat < 2 ^ 1 := c.toNat_lt
  show (aslResult w v ||| (if c then 1 else 0)).toNat = _
  rw [BitVec.toNat_or, toNat_aslResult, hcarry, heven, Nat.two_pow_add_eq_or_of_lt hbit]

/-- ROR: the shift leaves the highest bit of the width free for the carry. -/
theorem toNat_rorResult {w : Width} {v : Word} (h : v.toNat < modulus w) (c : Bool) :
    (rorResult w v c).toNat = v.toNat / 2 + c.toNat * (modulus w / 2) := by
  have hhalf : modulus w / 2 = 2 ^ (widthBits w - 1) := by cases w <;> rfl
  have hlow : v.toNat / 2 < 2 ^ (widthBits w - 1) := by
    rw [← hhalf]
    cases w <;> simp only [modulus_w8, modulus_w16] at h ⊢ <;> omega
  show (lsrResult v ||| (if c then 1#16 <<< (widthBits w - 1) else 0)).toNat = _
  rw [BitVec.toNat_or, toNat_lsrResult, toNat_carryBit (by cases w <;> decide), Nat.or_comm,
    ← Nat.two_pow_add_eq_or_of_lt hlow, hhalf, Nat.add_comm, Nat.mul_comm]

/-- A shift or rotate by one bit gives data of the width of its operand. -/
theorem shiftNat_lt {op : RmwOp} (hop : op ∈ [RmwOp.asl, .lsr, .rol, .ror]) {w : Width} {v : Nat} (h : v < modulus w)
    (c : Bool) : rmwNat op w v c < modulus w := by
  have hc : c.toNat ≤ 1 := c.toNat_le
  obtain rfl | rfl | rfl | rfl : op = .asl ∨ op = .lsr ∨ op = .rol ∨ op = .ror := by simpa using hop
  case inl => exact Nat.mod_lt _ (modulus_pos w)
  case inr.inl => exact (Nat.div_le_self v 2).trans_lt h
  case inr.inr.inl => cases w <;> simp only [rmwNat, modulus_w8, modulus_w16] <;> omega
  case inr.inr.inr => cases w <;> simp only [rmwNat, modulus_w8, modulus_w16] at h ⊢ <;> omega

/-! ## Shifts and rotates as read-modify-write instructions -/

/-- The flags of the four shifts: n and z of the result, and c the bit shifted out (R185). -/
theorem setsNZC_shiftFlags {w : Width} {r : Word} {n : Nat} {out out' : Bool} (hr : r.toNat = n) (hn : n < modulus w)
    (hout : out = out') (t : State) : SetsNZC w n out' t (t.shiftFlags w r out) := by
  subst hr hout
  refine ⟨nz_setNZ_of_lt hn _, by simp [State.shiftFlags], ?_⟩
  exact ((frame_setFlag t .c out).trans (frame_setNZ _ w r)).weaken (by simp) (by simp) (by simp)

/-- A shift or rotate that computes `result` and shifts out the bit `out` is the read-modify-write instruction of the
statements, when these are their numbers. -/
theorem shift_computedBy {op : RmwOp} (hop : op ∈ [RmwOp.asl, .lsr, .rol, .ror]) {result : Width → Word → Bool → Word}
    {out : Width → Word → Bool}
    (hexec : ∀ {pl i}, rmwForm op pl = some i → ∀ s, exec i s = modify pl s.wm (fun v => result s.wm v (s.flag .c))
      (fun v t => t.shiftFlags s.wm (result s.wm v (s.flag .c)) (out s.wm v)) s ∧
        (encode s.wm s.wx i).length = pl.length)
    (hresult : ∀ {w} {v : Word}, v.toNat < modulus w → ∀ c, (result w v c).toNat = rmwNat op w v.toNat c)
    (hout : ∀ w (v : Word) c, out w v = rmwCarry op w v.toNat c) :
    op.ComputedBy result (fun w v c t => t.shiftFlags w (result w v c) (out w v)) where
  exec_form := hexec
  result_toNat := hresult
  result_lt h c := shiftNat_lt hop h c
  sets_flags h t := setsNZC_shiftFlags (hresult h _) (shiftNat_lt hop h _) (hout _ _ _) t

theorem asl_computedBy : RmwOp.asl.ComputedBy (fun w v _ => aslResult w v)
    (fun w v _ t => t.shiftFlags w (aslResult w v) (msb w v)) :=
  shift_computedBy (by decide) (fun hform s => exec_aslForm hform s) (fun _ _ => toNat_aslResult _ _) fun _ _ _ => rfl

theorem lsr_computedBy : RmwOp.lsr.ComputedBy (fun _ v _ => lsrResult v)
    (fun w v _ t => t.shiftFlags w (lsrResult v) (v.getLsbD 0)) :=
  shift_computedBy (by decide) (fun hform s => exec_lsrForm hform s) (fun _ _ => toNat_lsrResult _) fun _ _ _ => rfl

theorem rol_computedBy : RmwOp.rol.ComputedBy rolResult (fun w v c t => t.shiftFlags w (rolResult w v c) (msb w v)) :=
  shift_computedBy (by decide) (fun hform s => exec_rolForm hform s) (fun _ c => toNat_rolResult _ _ c) fun _ _ _ => rfl

theorem ror_computedBy : RmwOp.ror.ComputedBy rorResult
    (fun w v c t => t.shiftFlags w (rorResult w v c) (v.getLsbD 0)) :=
  shift_computedBy (by decide) (fun hform s => exec_rorForm hform s) toNat_rorResult fun _ _ _ => rfl

/-! ## TRB and TSB (R190, R191) -/

/-- Clearing bits of data of width `w` is an AND with the complement of that width. -/
theorem toNat_and_not {w : Width} {m a : Word} (hm : m.toNat < modulus w) (ha : a.toNat < modulus w) :
    (m &&& ~~~a).toNat = m.toNat &&& (modulus w - 1 - a.toNat) := by
  apply Nat.eq_of_testBit_eq
  intro k
  rw [Nat.sub_sub, Nat.add_comm 1, Nat.testBit_and, modulus, Nat.testBit_two_pow_sub_succ ha, BitVec.testBit_toNat,
    BitVec.getLsbD_and, BitVec.getLsbD_not, BitVec.testBit_toNat, BitVec.testBit_toNat]
  by_cases hk : k < widthBits w
  case pos =>
    have h16 : k < 16 := hk.trans_le (by cases w <;> decide)
    simp [hk, h16]
  case neg =>
    have hhigh : m.getLsbD k = false := by
      rw [← BitVec.testBit_toNat]
      exact Nat.testBit_lt_two_pow (hm.trans_le (Nat.pow_le_pow_right (by decide) (not_lt.mp hk)))
    simp [hhigh]

/-- An instruction that tests the accumulator against a datum in memory and stores a result in its place. -/
theorem exec_testAndModify {result : Word → Word} {i : Instr} {md : Mode} {s s1 s2 : State} {ea : Ea} {m : Word} {r : Nat}
    (hexec : exec i s = modify (.mem md) s.wm result (fun v t => t.testFlag (s.accRead s.wm) v) s)
    (hlen : (encode s.wm s.wx i).length = md.length) (hea : effAddr md s = .ok ea s1)
    (hload : load s.wm ea.addr ea.wrap s1 = .ok m s2) (hresult : (result m).toNat = r) :
    ∃ t, exec i s = .next t ∧ StoredAt s t s.wm ea r ∧ t.flag .z = decide (s.accNat s.wm &&& m.toNat = 0) ∧
      Frame [.pc] [.z] (storedBytes s.wm ea.addr ea.wrap s) s t ∧ Advances i s t := by
  have hdraws := (effAddr_onlyDraws hea).trans (load_onlyDraws hload)
  have hstored := storedAt_storedState s.wm ea (result m) s2
  have hmem := frame_storedState s.wm ea.addr ea.wrap (result m) s2
  have htest := frame_testFlag (storedState s.wm ea.addr ea.wrap (result m) s2) (s.accRead s.wm) m
  have hall := hdraws.frame (hmem.trans htest)
  subst hresult
  refine ⟨_, hexec.trans (modify_mem_of_ok hea hload), ?stored, ?z, ?frame,
    advances_advance hlen (hall.reg .pc (by decide))⟩
  case stored => exact hdraws.storedAt (hstored.of_memBut htest.memBut)
  case z => rw [State.flag_advance, State.flag_testFlag, if_pos rfl, accNat_eq_accRead]
  case frame => simpa [hdraws.storedBytes] using hall.then_advance md.length

end Sys2Proof.Machine

open Sys2Proof.Machine

/-- Settles O34: the bitwise operations of words are those of their numbers, and stay within the width of both. -/
theorem logicalOperations : Obligations.LogicalOperations := by
  intro s s1 src i m r hop hforms
  have ha := accRead_lt s s.wm
  have hm := operand_lt hop
  rw [accNat_eq_accRead] at hforms
  obtain ⟨hform, rfl⟩ | ⟨hform, rfl⟩ | ⟨hform, rfl⟩ := hforms
  case inl =>
    obtain ⟨hexec, hlen⟩ := exec_andForm hform s
    exact exec_logical hexec hlen hop (BitVec.toNat_and ..) (Nat.and_lt_two_pow _ hm)
  case inr.inl =>
    obtain ⟨hexec, hlen⟩ := exec_eorForm hform s
    exact exec_logical hexec hlen hop (BitVec.toNat_xor ..) (Nat.xor_lt_two_pow ha hm)
  case inr.inr =>
    obtain ⟨hexec, hlen⟩ := exec_oraForm hform s
    exact exec_logical hexec hlen hop (BitVec.toNat_or ..) (Nat.or_lt_two_pow ha hm)

/-- Settles O35: the flags BIT writes, from the operand read and the accumulator, which the reading leaves alone. -/
theorem bitTest : Obligations.BitTest := by
  intro s s1 m
  refine ⟨fun md i hform hop => ?mem, fun k hop => ?imm⟩
  all_goals have hdraws := operand_onlyDraws hop
  all_goals rw [accNat_eq_accRead, ← hdraws.accRead]
  case mem =>
    obtain ⟨hexec, hlen⟩ := exec_bitForm hform s
    obtain ⟨hn, hv, hz, hframe⟩ := bitFlags_spec s1 s.wm (s1.accRead s.wm) m
    obtain ⟨hnext, hall, hadv⟩ := exec_withOperand hexec hlen hop hframe (by decide)
    exact ⟨_, hnext, hn, hv, hz, hall, hadv⟩
  case imm =>
    obtain ⟨hexec, hlen⟩ := exec_bitImm k s
    have hframe := frame_testFlag s1 (s1.accRead s.wm) m
    obtain ⟨hnext, hall, hadv⟩ := exec_withOperand hexec hlen hop hframe (by decide)
    exact ⟨_, hnext, by rw [State.flag_advance, State.flag_testFlag, if_pos rfl], hall, hadv⟩

/-- Settles O36: what `ComputedBy` gives for every read-modify-write instruction, with the results of the four. -/
theorem shiftsAndRotates : Obligations.ShiftsAndRotates := by
  intro op hop
  obtain rfl | rfl | rfl | rfl : op = .asl ∨ op = .lsr ∨ op = .rol ∨ op = .ror := by simpa using hop
  · exact ⟨asl_computedBy.rmwAccumulator, asl_computedBy.rmwMemory⟩
  · exact ⟨lsr_computedBy.rmwAccumulator, lsr_computedBy.rmwMemory⟩
  · exact ⟨rol_computedBy.rmwAccumulator, rol_computedBy.rmwMemory⟩
  · exact ⟨ror_computedBy.rmwAccumulator, ror_computedBy.rmwMemory⟩

/-- Settles O37: the test is of the datum read, and what is stored is the number of the statement. -/
theorem testAndModify : Obligations.TestAndModify := by
  intro s s1 s2 md i ea m r hea hload hforms
  rw [accNat_eq_accRead] at hforms
  obtain ⟨hform, rfl⟩ | ⟨hform, rfl⟩ := hforms
  case inl =>
    obtain ⟨hexec, hlen⟩ := exec_trbForm hform s
    exact exec_testAndModify hexec hlen hea hload (toNat_and_not (load_lt hload) (accRead_lt s s.wm))
  case inr =>
    obtain ⟨hexec, hlen⟩ := exec_tsbForm hform s
    exact exec_testAndModify hexec hlen hea hload (BitVec.toNat_or ..)
end

section
/-! PROOF. Program flow (43_program_flow.md): the flag instructions, REP and SEP, the compares, the branches and the jumps;
then what pushes leave on the stack, that pulls give it back, and with that the calls and returns. -/

namespace Sys2Proof.Machine

/-! ## Frames of jumps -/

theorem Frame.regsBut {rs : List Reg} {fs : List Flag} {as : List Addr} {s t : State} (h : Frame rs fs as s t) :
    RegsBut rs s t := h.1

theorem frame_pc (s : State) (v : Word) : Frame [.pc] [] [] s { s with pc := v } :=
  ⟨fun q hq => by cases q <;> first | rfl | exact absurd (List.mem_singleton_self _) hq, fun _ _ => rfl, fun _ _ => rfl⟩

/-- A jump to another bank. -/
theorem frame_pc_pbr (s : State) (v : Word) (b : Byte) : Frame [.pc, .pbr] [] [] s { s with pc := v, pbr := b } :=
  ⟨fun q hq => by cases q <;> first | rfl | simp at hq, fun _ _ => rfl, fun _ _ => rfl⟩

theorem frame_moveS (s : State) (n : Word) : Frame [.sp] [] [] s (s.moveS n) := by
  refine ⟨fun q hq => ?_, .of_p (by simp), .of_mem (by simp) (by simp)⟩
  cases q <;> simp_all [Reg.Same]

/-! ## Flag instructions, REP and SEP (R200 to R209) -/

theorem opFlag_spec {i : Instr} {s : State} {f : Flag} {b : Bool} (hexec : exec i s = opFlag f b s)
    (hlen : (encode s.wm s.wx i).length = 1) :
    ∃ t, exec i s = .next t ∧ t.flag f = b ∧ Frame [.pc] [f] [] s t ∧ Advances i s t :=
  ⟨_, hexec, by simp, (frame_setFlag s f b).then_advance 1, advances_advance hlen rfl⟩

/-- The bits of P that the constant of REP or SEP names: bits 5 and 4 are not among them in emulation mode. -/
def State.named (s : State) (k : Byte) : Byte := if s.emulation then k &&& 0xCF else k

theorem State.named_of_emulation {s : State} (h : s.emulation = true) (k : Byte) : s.named k = k &&& 0xCF := if_pos h

theorem State.named_of_native {s : State} (h : s.emulation = false) (k : Byte) : s.named k = k := if_neg (by simp [h])

theorem State.getFlag_named (s : State) (k : Byte) (f : Flag) :
    getFlag (s.named k) f = (k.getLsbD f.bit && !(s.emulation && (f == .m || f == .x))) := by
  cases he : s.emulation
  case false => simp [State.named_of_native he, getFlag]
  case true => cases f <;> simp [State.named_of_emulation he, getFlag, Flag.bit]

/-- The state with P loaded, and the high bytes of X and Y cleared when `clear` holds. -/
def State.withP (s : State) (p : Byte) (clear : Bool) : State :=
  if clear then ({ s with p := p } : State).clearIdxHigh else { s with p := p }

theorem withP_spec (s : State) (p : Byte) (clear : Bool) :
    (s.withP p clear).p = p ∧ (s.withP p clear).x.toNat = (if clear then s.x.toNat % 256 else s.x.toNat) ∧
      (s.withP p clear).y.toNat = (if clear then s.y.toNat % 256 else s.y.toNat) := by
  cases clear
  case false => exact ⟨rfl, rfl, rfl⟩
  case true => exact ⟨rfl, toNat_trunc .w8 s.x, toNat_trunc .w8 s.y⟩

/-- Every flag: what a load of P may change. -/
def allFlags : List Flag := [.n, .v, .m, .x, .d, .i, .z, .c]

theorem frame_withP (s : State) (p : Byte) (clear : Bool) :
    Frame (if clear then [.x, .y] else []) allFlags [] s (s.withP p clear) := by
  refine ⟨fun q hq => ?regs, fun f hf => absurd (by cases f <;> decide) hf, ?mem⟩
  case regs => cases clear <;> cases q <;> first | rfl | simp at hq
  case mem => cases clear <;> exact .of_mem rfl rfl

theorem opRep_eq (k : Byte) (s : State) : opRep k s = .next ((s.withP (s.p &&& ~~~(s.named k)) false).advance 2) := rfl

/-- The three cases of SEP in one: it is in native mode alone that x can be named. -/
theorem opSep_eq (k : Byte) (s : State) :
    opSep k s = .next ((s.withP (s.p ||| s.named k) (getFlag (s.named k) .x)).advance 2) := by
  cases he : s.emulation
  case true => rw [State.named_of_emulation he, getFlag_mask k (.inr rfl), opSep, if_pos he]; rfl
  case false =>
    rw [State.named_of_native he, opSep, if_neg (by simp [he])]
    cases getFlag k .x <;> rfl

/-! ## Compares (R210 to R212) -/

theorem compareFlags_spec (s : State) {w : Width} {a m : Word} (ha : a.toNat < modulus w) (hm : m.toNat < modulus w) :
    let t := s.compareFlags w a m
    t.flag .c = decide (m.toNat ≤ a.toNat) ∧ NZ t w ((a.toNat + modulus w - m.toNat) % modulus w) ∧
      Frame [] [.n, .z, .c] [] s t := by
  intro t
  have hdiff : (ofIntMod w ((a.toNat : Int) - m.toNat)).toNat = (a.toNat + modulus w - m.toNat) % modulus w := by
    rw [toNat_ofIntMod]; cases w <;> simp only [modulus_w8, modulus_w16] at * <;> omega
  refine ⟨by simp [t, State.compareFlags], ?nz, ?frame⟩
  case nz => rw [← hdiff]; exact nz_setNZ_of_lt (hdiff ▸ Nat.mod_lt _ (modulus_pos w)) _
  case frame => exact ((frame_setFlag s .c _).trans (frame_setNZ _ w _)).weaken (by simp) (by simp) (by simp)

/-- A compare of the register value `a`, which reading the operand leaves alone. -/
theorem exec_compare {i : Instr} {src : Source} {w : Width} {s s1 : State} {m a : Word} {reg : State → Word}
    (hexec : exec i s = withOperand src w (fun m t => t.compareFlags w (reg t) m) s)
    (hlen : (encode s.wm s.wx i).length = src.length w) (hop : operand src w s = .ok m s1) (hreg : reg s1 = a)
    (ha : a.toNat < modulus w) :
    ∃ t, exec i s = .next t ∧ t.flag .c = decide (m.toNat ≤ a.toNat) ∧
      NZ t w ((a.toNat + modulus w - m.toNat) % modulus w) ∧ Frame [.pc] [.n, .z, .c] [] s t ∧ Advances i s t := by
  subst hreg
  obtain ⟨hc, hnz, hframe⟩ := compareFlags_spec s1 ha (operand_lt hop)
  obtain ⟨hnext, hall, hadv⟩ := exec_withOperand hexec hlen hop hframe (by decide)
  exact ⟨_, hnext, hc, hnz, hall, hadv⟩

theorem OnlyDraws.idx {s t : State} (h : OnlyDraws s t) (r : IdxReg) : t.idx r = s.idx r := by rw [h]; cases r <;> rfl

/-- CPX and CPY. -/
theorem exec_compareIdx {i : Instr} {src : Source} {r : IdxReg} {s s1 : State} {m : Word}
    (hexec : exec i s = opCmpIdx r src s) (hlen : (encode s.wm s.wx i).length = src.length s.wx)
    (hop : operand src s.wx s = .ok m s1) :
    let reg := (s.idx r).toNat % modulus s.wx
    ∃ t, exec i s = .next t ∧ t.flag .c = decide (m.toNat ≤ reg) ∧
      NZ t s.wx ((reg + modulus s.wx - m.toNat) % modulus s.wx) ∧ Frame [.pc] [.n, .z, .c] [] s t ∧ Advances i s t := by
  dsimp only
  rw [← toNat_trunc]
  refine exec_compare hexec hlen hop (by rw [(operand_onlyDraws hop).idx]) ?_
  rw [toNat_trunc]
  exact Nat.mod_lt _ (modulus_pos _)

/-! ## Branches and direct jumps (R213 to R225) -/

/-- A branch target: the displacement counts as a signed number. -/
theorem toNat_branchTarget (pc : Word) (rel : Byte) :
    ((pc + 2 + rel.signExtend 16).toNat : Int) = ((pc.toNat : Int) + 2 + rel.toInt) % 65536 := by
  have two16 : (2 : Word).toNat = 2 := rfl
  have hrel := rel.isLt
  rw [BitVec.toNat_add, BitVec.toNat_add, two16, BitVec.toNat_signExtend, BitVec.toInt_eq_msb_cond, BitVec.toNat_setWidth]
  cases rel.msb <;> simp only [Bool.false_eq_true, if_false, if_true] <;> omega

theorem branch_spec {i : Instr} {s : State} {taken : Bool} {rel : Byte} (hexec : exec i s = branch taken rel s) :
    ∃ t, exec i s = .next t ∧
      (t.pc.toNat : Int) = ((s.pc.toNat : Int) + 2 + (if taken then rel.toInt else 0)) % 65536 ∧ Frame [.pc] [] [] s t := by
  cases taken
  case true => exact ⟨_, hexec, toNat_branchTarget s.pc rel, frame_pc s _⟩
  case false =>
    refine ⟨_, hexec, ?_, frame_pc s _⟩
    have hpc : (s.advance 2).pc.toNat = (s.pc.toNat + 2) % 65536 := BitVec.toNat_add ..
    rw [hpc]; simp

theorem toNat_relLong (s : State) (rel : Word) : (s.relLong rel).toNat = (s.pc.toNat + 3 + rel.toNat) % 65536 := by
  simp [State.relLong, BitVec.toNat_add]

/-! ## Jumps through memory (R226 to R228) -/

theorem addrOf_zero_eq (a : Word) : addrOf 0 a = BitVec.ofNat 24 a.toNat := addr_eq_ofNat (by simp)

@[simp] theorem State.succ_bank_addrOf (s : State) (b : Byte) (w : Word) : s.succ (addrOf b w) .bank = addrOf b (w + 1) := by
  simp [State.succ]

/-- The second byte of the pointer of `JMP (addr)`. -/
theorem State.succ_jmpIndWrap (s : State) (a : Word) :
    s.succ (BitVec.ofNat 24 a.toNat) s.jmpIndWrap = BitVec.ofNat 24
      (if s.cfg.variant = .v6502 then a.toNat / 256 * 256 + (a.toNat + 1) % 256 else (a.toNat + 1) % 65536) := by
  have ha : (BitVec.ofNat 24 a.toNat).toNat = a.toNat := toNat_addr_ofNat a.isLt
  apply addr_eq_ofNat
  unfold State.jmpIndWrap
  split
  · rw [toNat_succ_page, ha]
  · rw [toNat_succ_bank, ha, Nat.div_eq_of_lt a.isLt]; omega

theorem indexedPointer_of_backed {s t : State} {a : Word} (h0 : Backed t (addrOf s.progBank (a + s.x)))
    (h1 : Backed t (addrOf s.progBank (a + s.x + 1))) :
    s.indexedPointer a t = .ok (t.pair (addrOf s.progBank (a + s.x)) (addrOf s.progBank (a + s.x + 1))) t := by
  rw [← t.succ_bank_addrOf] at h1 ⊢
  exact read16_of_backed h0 h1

theorem exec_jmpAbsInd {s : State} {a : Word} {p1 : Addr} (hp1 : s.succ (BitVec.ofNat 24 a.toNat) s.jmpIndWrap = p1)
    (h0 : Backed s (BitVec.ofNat 24 a.toNat)) (h1 : Backed s p1) :
    exec (.jmpAbsInd a) s = .next { s with pc := s.pair (BitVec.ofNat 24 a.toNat) p1 } := by
  subst hp1
  show execJmpAbsInd a s = _
  rw [execJmpAbsInd, addrOf_zero_eq, read16_of_backed h0 h1]; rfl

theorem exec_jmpAbsXInd {s : State} {a : Word} (h0 : Backed s (addrOf s.progBank (a + s.x)))
    (h1 : Backed s (addrOf s.progBank (a + s.x + 1))) :
    exec (.jmpAbsXInd a) s =
      .next { s with pc := s.pair (addrOf s.progBank (a + s.x)) (addrOf s.progBank (a + s.x + 1)) } := by
  show execJmpAbsXInd a s = _
  rw [execJmpAbsXInd, indexedPointer_of_backed h0 h1, Access.andThen_ok]

theorem exec_jmpAbsIndLong {s : State} {a : Word} (h0 : Backed s (BitVec.ofNat 24 a.toNat))
    (h1 : Backed s (BitVec.ofNat 24 ((a.toNat + 1) % 65536))) (h2 : Backed s (BitVec.ofNat 24 ((a.toNat + 2) % 65536))) :
    exec (.jmpAbsIndLong a) s =
      .next { s with pc := s.pair (BitVec.ofNat 24 a.toNat) (BitVec.ofNat 24 ((a.toNat + 1) % 65536))
                     pbr := s.cell (BitVec.ofNat 24 ((a.toNat + 2) % 65536)) } := by
  have ha : a.toNat % 65536 = a.toNat := Nat.mod_eq_of_lt a.isLt
  have hread := read24_bank (ha.symm ▸ h0) h1 h2
  rw [ha] at hread
  show execJmpAbsIndLong a s = _
  rw [execJmpAbsIndLong, addrOf_zero_eq, hread, Access.andThen_ok, offset_addrOf, bank_addrOf]

/-! ## Pushes and pulls (45_stack.md R280 to R283) -/

theorem Access.bind_andThen {α β : Type} (x : Access α) (f : α → State → Access β) (g : β → State → Result) :
    (x.bind f).andThen g = x.andThen fun a s => (f a s).andThen g := by
  cases x <;> rfl

theorem PushedBytes.pushed {bs : List Byte} {s t : State} (h : PushedBytes bs s t) : Pushed bs.length s t := h.2.1

theorem PushedBytes.stored {bs : List Byte} {s t : State} (h : PushedBytes bs s t) (k : Nat) (hk : k < bs.length) :
    Stored s t (s.pushSlot k) bs[k] := h.1 k hk

theorem PushedBytes.memBut {bs : List Byte} {s t : State} (h : PushedBytes bs s t) :
    MemBut ((List.range bs.length).map s.pushSlot) s t := h.2.2

/-- Pushing bytes where no device stands: `pushAll_of_canPush` with a frame. -/
theorem pushAll_spec {bs : List Byte} {s : State} (hforced : s.emulationForced = true) (hlen : bs.length ≤ 200)
    (hcan : CanPush bs.length s) :
    ∃ t, pushAll bs s = .ok () t ∧ PushedBytes bs s t ∧ Frame [.sp] [] ((List.range bs.length).map s.pushSlot) s t := by
  obtain ⟨t, hpush, hbytes, ht, _⟩ := pushAll_of_canPush bs s hforced hlen hcan
  refine ⟨t, hpush, hbytes, fun q hq => ?regs, .of_p (by rw [ht]), hbytes.memBut⟩
  rw [ht]
  cases q <;> first | rfl | exact absurd (List.mem_singleton_self _) hq

/-- Bytes stay pushed while neither memory nor S changes. -/
theorem PushedBytes.then_frame {bs : List Byte} {rs : List Reg} {fs : List Flag} {s t u : State} (h : PushedBytes bs s t)
    (hframe : Frame rs fs [] t u) (hsp : .sp ∉ rs) : PushedBytes bs s u := by
  have hcell (a : Addr) : u.cell a = t.cell a := hframe.memBut a (by simp)
  exact ⟨fun k hk => (hcell _).trans (h.stored k hk), (hframe.reg .sp hsp).trans h.pushed,
    fun a ha => (hcell a).trans (h.memBut a ha)⟩

/-- Pulls go back over the slots that pushes went down. -/
theorem Pushed.pullSlot {n k : Nat} {s t : State} (h : Pushed n s t) (he : t.emulation = s.emulation) (hn : n ≤ 256)
    (hk : k < n) : t.pullSlot (n - k) = s.pushSlot k := by
  have hs := s.sp.isLt
  unfold State.pullSlot State.pushSlot
  rw [h, he]
  congr 1
  apply BitVec.eq_of_toNat_eq
  cases s.emulation <;> simp <;> omega

/-- As many pulls as there were pushes bring S back. -/
theorem Pushed.sp_of_pulled {n : Nat} {s t u : State} (h : Pushed n s t) (hpulled : Pulled n t u)
    (he : t.emulation = s.emulation) (hforced : s.emulationForced = true) (hn : n ≤ 256) : u.sp = s.sp := by
  have hs := s.sp.isLt
  have hpage := emulationForced_sp hforced
  rw [hpulled, h, he]
  apply BitVec.eq_of_toNat_eq
  cases hem : s.emulation
  case false => simp; omega
  case true => have := hpage hem; simp; omega

section
variable {bs : List Byte} {s t : State}

/-- What was pushed into RAM can be pulled. -/
theorem PushedBytes.canPull (h : PushedBytes bs s t) (hc : t.cfg = s.cfg) (he : t.emulation = s.emulation)
    (hlen : bs.length ≤ 256) (hram : ∀ k < bs.length, kindAt s.cfg (s.pushSlot k) = .ram) : CanPull bs.length t := by
  intro k hk
  have hslot := h.pushed.pullSlot he hlen (show bs.length - 1 - k < bs.length by omega)
  rw [show bs.length - (bs.length - 1 - k) = k + 1 by omega] at hslot
  left
  rw [hslot, hc]
  exact hram _ (by omega)

/-- Pulls give what was pushed, the last byte first. -/
theorem PushedBytes.pulledByte (h : PushedBytes bs s t) (he : t.emulation = s.emulation)
    (hlen : bs.length ≤ 256) (hram : ∀ k < bs.length, kindAt s.cfg (s.pushSlot k) = .ram) (k : Nat) (hk : k < bs.length) :
    t.pulledByte (bs.length - k) = bs[k] := by
  rw [State.pulledByte, h.pushed.pullSlot he hlen hk, h.stored k hk, if_pos (hram k hk)]
end

/-! ## Calls and returns (R229 to R233) -/

theorem exec_jsrAbs (a : Word) (s : State) :
    exec (.jsrAbs a) s =
      (pushAll [highByte (s.pc + 2), lowByte (s.pc + 2)] s).andThen fun _ t => .next { t with pc := a } := by
  rw [← push16_eq_pushAll]; rfl

theorem exec_jsrAbsXInd (a : Word) (s : State) :
    exec (.jsrAbsXInd a) s = (pushAll [highByte (s.pc + 2), lowByte (s.pc + 2)] s).andThen fun _ t =>
      (s.indexedPointer a t).andThen fun target u => .next { u with pc := target } := by
  rw [← push16_eq_pushAll]; rfl

theorem exec_jsl (l : Addr) (s : State) :
    exec (.jsl l) s = (pushAll [s.pbr, highByte (s.pc + 3), lowByte (s.pc + 3)] s).andThen fun _ t =>
      .next { t with pc := l.offset, pbr := l.bank } := by
  rw [← push8_push16_eq_pushAll, Access.bind_andThen]; rfl

theorem exec_rts {s : State} (h : CanPull 2 s) :
    exec .rts s = .next { (s.moveS 1).moveS 1 with pc := wordOf (s.pulledByte 1) (s.pulledByte 2) + 1 } := by
  show execRts s = _
  rw [execRts, pull16_of_canPull h, Access.andThen_ok]

theorem exec_rtl {s : State} (h : CanPull 3 s) :
    exec .rtl s = .next { ((s.moveS 1).moveS 1).moveS 1 with
      pc := wordOf (s.pulledByte 1) (s.pulledByte 2) + 1, pbr := s.pulledByte 3 } := by
  have hbank : Backed ((s.moveS 1).moveS 1) (((s.moveS 1).moveS 1).pullSlot 1) := by
    rw [backed_moveS, backed_moveS, pullSlot_moveS_one, pullSlot_moveS_one]; exact h 2 (by decide)
  show execRtl s = _
  rw [execRtl, pull16_of_canPull fun k hk => h k (by omega), Access.andThen_ok, pull8_of_canPull hbank,
    pulledByte_moveS_one, pulledByte_moveS_one, Access.andThen_ok]

end Sys2Proof.Machine

open Sys2Proof Sys2Proof.Machine

/-- Settles O38: all seven are `opFlag`. -/
theorem flagInstructions : Obligations.FlagInstructions := by
  intro s e he
  obtain ⟨hexec, hlen⟩ : exec e.1 s = opFlag e.2.1 e.2.2 s ∧ (encode s.wm s.wx e.1).length = 1 := by
    fin_cases he <;> exact ⟨rfl, rfl⟩
  exact opFlag_spec hexec hlen

/-- Settles O39: both write P by the bits named, and SEP clears the index registers if x is among them. -/
theorem repAndSep : Obligations.RepAndSep := by
  intro s k
  simp only [← s.getFlag_named]
  constructor
  case left =>
    have hframe := (frame_withP s (s.p &&& ~~~(s.named k)) false).then_advance 2
    exact ⟨_, opRep_eq k s, getFlag_and_not _ _, hframe.regsBut, hframe.memBut, advances_advance rfl rfl⟩
  case right =>
    obtain ⟨hp, hx, hy⟩ := withP_spec s (s.p ||| s.named k) (getFlag (s.named k) .x)
    have hframe := (frame_withP s (s.p ||| s.named k) (getFlag (s.named k) .x)).weaken (rs' := [.x, .y])
      (by split <;> simp) (fun _ => id) fun _ => id
    have hall := hframe.then_advance 2
    refine ⟨_, opSep_eq k s, fun f => ?flag, hx, hy, hall.regsBut, hall.memBut, advances_advance rfl (hframe.reg .pc (by decide))⟩
    rw [State.flag_advance, State.flag, hp, getFlag_or]; rfl

/-- Settles O40: the three are one compare, of the accumulator or of an index register at its width. -/
theorem compares : Obligations.Compares := by
  intro s s1 src i m w reg hforms hop
  obtain ⟨hform, rfl, rfl⟩ | ⟨hform, rfl, rfl⟩ | ⟨hform, rfl, rfl⟩ := hforms
  case inl =>
    obtain ⟨hexec, hlen⟩ := exec_cmpForm hform s
    rw [accNat_eq_accRead]
    exact exec_compare hexec hlen hop ((operand_onlyDraws hop).accRead s.wm) (accRead_lt s s.wm)
  case inr.inl =>
    obtain ⟨hexec, hlen⟩ := exec_cpxForm hform
    exact exec_compareIdx (r := .x) hexec hlen hop
  case inr.inr =>
    obtain ⟨hexec, hlen⟩ := exec_cpyForm hform
    exact exec_compareIdx (r := .y) hexec hlen hop

/-- Settles O41: all nine are `branch`. -/
theorem branches : Obligations.Branches := by
  intro s rel e he
  have hexec : exec e.1 s = branch e.2 rel s := by fin_cases he <;> rfl
  exact branch_spec hexec

/-- Settles O42: the targets as numbers; no jump writes anything but PC and, in the long form, PBR. -/
theorem directJumps : Obligations.DirectJumps := by
  intro s a rel l
  refine ⟨?brl, ?jmp, ?jmpLong⟩
  case brl => exact ⟨_, rfl, toNat_relLong s rel, frame_pc s _⟩
  case jmp => exact ⟨_, rfl, rfl, frame_pc s a⟩
  case jmpLong => exact ⟨_, rfl, toNat_offset l, toNat_bank l, frame_pc_pbr s _ _⟩

/-- Settles O43: each pointer is read from the bytes named, and the jump changes PC and the bank alone. -/
theorem indirectJumps : Obligations.IndirectJumps := by
  intro s a
  refine ⟨fun h0 h1 => ?ind, fun h0 h1 => ?xInd, fun h0 h1 h2 => ?indLong⟩
  case ind => exact ⟨_, exec_jmpAbsInd (s.succ_jmpIndWrap a) h0 h1, rfl, frame_pc s _⟩
  case xInd => exact ⟨_, exec_jmpAbsXInd h0 h1, rfl, frame_pc s _⟩
  case indLong => exact ⟨_, exec_jmpAbsIndLong h0 h1 h2, rfl, rfl, frame_pc_pbr s _ _⟩

/-- Settles O44: the pushes, then a jump that touches neither memory nor S. -/
theorem calls : Obligations.Calls := by
  intro s hforced
  refine ⟨fun a hcan => ?jsr, fun a hcan h0 h1 => ?jsrX, fun l hcan => ?jsl⟩
  case jsr =>
    obtain ⟨t, hpush, hbytes, hframe⟩ := pushAll_spec (bs := [highByte (s.pc + 2), lowByte (s.pc + 2)]) hforced (by simp) hcan
    have hjump := frame_pc t a
    obtain ⟨hregs, hflags, _⟩ := hframe.trans hjump
    exact ⟨_, by rw [exec_jsrAbs, hpush, Access.andThen_ok], hbytes.then_frame hjump (by decide), rfl, hregs, hflags⟩
  case jsrX =>
    obtain ⟨t, hpush, hbytes, hframe⟩ := pushAll_spec (bs := [highByte (s.pc + 2), lowByte (s.pc + 2)]) hforced (by simp) hcan
    have hc : t.cfg = s.cfg := hframe.reg .cfg (by decide)
    have hread := indexedPointer_of_backed (s := s) (t := t) (a := a) (by rwa [Backed, hc]) (by rwa [Backed, hc])
    have hjump := frame_pc t (t.pair (addrOf s.progBank (a + s.x)) (addrOf s.progBank (a + s.x + 1)))
    obtain ⟨hregs, hflags, _⟩ := hframe.trans hjump
    refine ⟨_, ?_, hbytes.then_frame hjump (by decide), rfl, hregs, hflags⟩
    rw [exec_jsrAbsXInd, hpush, Access.andThen_ok, hread, Access.andThen_ok]
  case jsl =>
    obtain ⟨t, hpush, hbytes, hframe⟩ :=
      pushAll_spec (bs := [s.pbr, highByte (s.pc + 3), lowByte (s.pc + 3)]) hforced (by simp) hcan
    have hjump := frame_pc_pbr t l.offset l.bank
    obtain ⟨hregs, hflags, _⟩ := (hframe.trans hjump).weaken (rs' := [.sp, .pbr, .pc]) (by simp) (fun _ => id) fun _ => id
    refine ⟨_, ?_, hbytes.then_frame hjump (by decide), toNat_offset l, toNat_bank l, hregs, hflags⟩
    rw [exec_jsl, hpush, Access.andThen_ok]

/-- Settles O45: each byte pulled is a step of S, and the jump touches neither memory nor S. -/
theorem returns : Obligations.Returns := by
  intro s
  refine ⟨fun hcan => ?rts, fun hcan => ?rtl⟩
  case rts =>
    have hframe := ((frame_moveS s 1).trans (frame_moveS _ 1)).trans (frame_pc _ (wordOf (s.pulledByte 1) (s.pulledByte 2) + 1))
    have hpulled : Pulled 2 s ((s.moveS 1).moveS 1) := pulled_moveS s 1 (pulled_one _)
    exact ⟨_, exec_rts hcan, rfl, hpulled, hframe.weaken (by simp) (fun _ => id) fun _ => id⟩
  case rtl =>
    have hframe := (((frame_moveS s 1).trans (frame_moveS _ 1)).trans (frame_moveS _ 1)).trans
      (frame_pc_pbr _ (wordOf (s.pulledByte 1) (s.pulledByte 2) + 1) (s.pulledByte 3))
    have hpulled : Pulled 3 s (((s.moveS 1).moveS 1).moveS 1) := pulled_moveS s 2 (pulled_moveS _ 1 (pulled_one _))
    exact ⟨_, exec_rtl hcan, rfl, rfl, hpulled, hframe.weaken (by simp) (fun _ => id) fun _ => id⟩

/-- Settles O46: what the call pushed is what the return pulls, and its return address plus one is the next instruction. -/
theorem returnUndoesCall : Obligations.ReturnUndoesCall := by
  intro s hforced
  obtain ⟨hjsr, -, hjsl⟩ := calls s hforced
  refine ⟨fun a hram => ?jsr, fun l hram => ?jsl⟩
  case jsr =>
    obtain ⟨t, hcall, hbytes, -, hregs, -⟩ := hjsr a fun k hk => by simp [hram k hk]
    have hc : t.cfg = s.cfg := hregs .cfg (by decide)
    have he := State.emulation_congr hc (hregs .e (by decide))
    obtain ⟨hrts, -⟩ := returns t
    obtain ⟨u, hret, hpc, hpulled, hframe⟩ := hrts (hbytes.canPull hc he (by simp) hram)
    have hlow : t.pulledByte 1 = lowByte (s.pc + 2) := hbytes.pulledByte he (by simp) hram 1 (by simp)
    have hhigh : t.pulledByte 2 = highByte (s.pc + 2) := hbytes.pulledByte he (by simp) hram 0 (by simp)
    rw [hlow, hhigh, wordOf_lowByte_highByte, BitVec.add_assoc] at hpc
    have hpbr : u.pbr = t.pbr := hframe.reg .pbr (by decide)
    exact ⟨t, u, hcall, hret, hpc, hbytes.pushed.sp_of_pulled hpulled he hforced (by simp), hpbr.trans (hregs .pbr (by decide))⟩
  case jsl =>
    obtain ⟨t, hcall, hbytes, -, -, hregs, -⟩ := hjsl l fun k hk => by simp [hram k hk]
    have hc : t.cfg = s.cfg := hregs .cfg (by decide)
    have he := State.emulation_congr hc (hregs .e (by decide))
    obtain ⟨-, hrtl⟩ := returns t
    obtain ⟨u, hret, hpc, hpbr, hpulled, -⟩ := hrtl (hbytes.canPull hc he (by simp) hram)
    have hlow : t.pulledByte 1 = lowByte (s.pc + 3) := hbytes.pulledByte he (by simp) hram 2 (by simp)
    have hhigh : t.pulledByte 2 = highByte (s.pc + 3) := hbytes.pulledByte he (by simp) hram 1 (by simp)
    have hbank : t.pulledByte 3 = s.pbr := hbytes.pulledByte he (by simp) hram 0 (by simp)
    rw [hlow, hhigh, wordOf_lowByte_highByte, BitVec.add_assoc] at hpc
    exact ⟨t, u, hcall, hret, hpc, hbytes.pushed.sp_of_pulled hpulled he hforced (by simp), hpbr.trans hbank⟩
end

section
/-! PROOF. Register operations (44_registers.md): the end of a load and of a store, then the transfers, those at a width and
those of 16 bits. -/

namespace Sys2Proof.Machine

/-! ## Loads (R250 to R252) -/

/-- The end of a load of an index register with data `v` of its width. -/
theorem idxLoad_spec (s : State) (r : IdxReg) {w : Width} {v : Word} (hv : v.toNat < modulus w) :
    let t := (s.idxWrite r w v).setNZ w v
    t.idx r = v ∧ NZ t w v.toNat ∧ Frame [idxPart r] [.n, .z] [] s t := by
  refine ⟨?idx, nz_setNZ_of_lt hv _, (frame_idxWrite s r w v).trans (frame_setNZ _ w v) (by cases r <;> decide)⟩
  case idx =>
    have hwrite := idx_idxWrite s r w v
    rw [trunc_of_lt hv] at hwrite
    cases r <;> exact hwrite

/-- LDX and LDY: an operand has the width it was read at, so the register takes the whole of it. -/
theorem exec_loadIdx {i : Instr} {src : Source} {r : IdxReg} {s s1 : State} {m : Word} (hexec : exec i s = opLdIdx r src s)
    (hlen : (encode s.wm s.wx i).length = src.length s.wx) (hop : operand src s.wx s = .ok m s1) :
    ∃ t, exec i s = .next t ∧ t.idx r = m ∧ NZ t s.wx m.toNat ∧ Frame [idxPart r, .pc] [.n, .z] [] s t ∧
      Advances i s t := by
  obtain ⟨hidx, hnz, hframe⟩ := idxLoad_spec s1 r (operand_lt hop)
  obtain ⟨hnext, hall, hadv⟩ := exec_withOperand hexec hlen hop hframe (by cases r <;> decide)
  exact ⟨_, hnext, by cases r <;> exact hidx, hnz, hall, hadv⟩

/-- LDA ends as the logical operations do, with the operand itself for the result. -/
theorem exec_loadAcc {i : Instr} {src : Source} {s s1 : State} {m : Word} (hexec : exec i s = opLda src s)
    (hlen : (encode s.wm s.wx i).length = src.length s.wm) (hop : operand src s.wm s = .ok m s1) :
    ∃ t, exec i s = .next t ∧ AccIs s t s.wm m.toNat ∧ NZ t s.wm m.toNat ∧ Frame [.c, .pc] [.n, .z] [] s t ∧
      Advances i s t := by
  obtain ⟨hacc, hnz, hframe⟩ := logicalResult_spec s1 (operand_lt hop)
  obtain ⟨hnext, hall, hadv⟩ := exec_withOperand hexec hlen hop hframe (by decide)
  exact ⟨_, hnext, (operand_onlyDraws hop).accIs hacc, hnz, hall, hadv⟩

/-! ## Stores (R253 to R256) -/

/-- A store of the datum `v`: finding the effective address draws at most free values, so what is stored since then is stored
since before. -/
theorem exec_store {i : Instr} {md : Mode} {w : Width} {v : Word} {n : Nat} {s s1 : State} {ea : Ea}
    (hexec : exec i s = storeTo md w v s ∧ (encode s.wm s.wx i).length = md.length) (hv : v.toNat = n)
    (hea : effAddr md s = .ok ea s1) (hdev : ∀ a ∈ storedBytes w ea.addr ea.wrap s, NotDevice s a) :
    ∃ t, exec i s = .next t ∧ StoredAt s t w ea n ∧ Frame [.pc] [] (storedBytes w ea.addr ea.wrap s) s t ∧
      Advances i s t := by
  obtain ⟨hexec, hlen⟩ := hexec
  subst hv
  have hdraws := effAddr_onlyDraws hea
  have hstored := hdraws.storedAt (storedAt_storedState w ea v s1)
  have hframe := hdraws.frame (frame_storedState w ea.addr ea.wrap v s1)
  have hdev1 : ∀ a ∈ storedBytes w ea.addr ea.wrap s1, NotDevice s1 a := fun a ha =>
    hdraws.notDevice.2 (hdev a (hdraws.storedBytes w _ _ ▸ ha))
  rw [hdraws.storedBytes] at hframe
  exact ⟨_, hexec.trans (storeTo_of_ok hea hdev1), hstored, hframe.then_advance md.length,
    advances_advance hlen (hframe.reg .pc (by decide))⟩

/-! ## Transfers (R257 to R270) -/

theorem accIs_accWrite (s : State) (w : Width) (v : Word) : AccIs s (s.accWrite w v) w (v.toNat % modulus w) := by
  cases w
  case w8 => simp [AccIs, State.accWrite]
  case w16 => exact (Nat.mod_eq_of_lt v.isLt).symm

theorem frame_d (s : State) (v : Word) : Frame [.d] [] [] s { s with d := v } :=
  ⟨fun q hq => by cases q <;> first | rfl | exact absurd (List.mem_singleton_self _) hq, fun _ _ => rfl, fun _ _ => rfl⟩

theorem frame_sp (s : State) (v : Word) : Frame [.sp] [] [] s { s with sp := v } :=
  ⟨fun q hq => by cases q <;> first | rfl | exact absurd (List.mem_singleton_self _) hq, fun _ _ => rfl, fun _ _ => rfl⟩

/-- A transfer that writes the register `r`, which leads to `u`, and then sets n and z by the low `w` bits of `v`. -/
theorem flaggedTransfer_spec {i : Instr} {s u : State} {r : Reg} {w : Width} {v : Word} {n : Nat}
    (hlen : (encode s.wm s.wx i).length = 1) (hwrite : Frame [r] [] [] s u) (hr : r ∉ [Reg.cfg, .pc])
    (hn : v.toNat % modulus w = n) :
    let t := (u.setNZ w v).advance 1
    NZ t w n ∧ Frame [r, .pc] [.n, .z] [] s t ∧ Advances i s t := by
  subst hn
  obtain ⟨hcfg, hpc⟩ : Reg.cfg ≠ r ∧ Reg.pc ≠ r := by simpa [eq_comm] using hr
  have hframe := hwrite.trans (frame_setNZ u w v) (by simpa using hcfg)
  exact ⟨nz_setNZ u w v, hframe.then_advance 1, advances_advance hlen (hframe.reg .pc (by simpa using hpc))⟩

theorem exec_toAcc {i : Instr} {s : State} {v : Word} (hexec : exec i s = toAcc v s)
    (hlen : (encode s.wm s.wx i).length = 1) :
    ∃ t, exec i s = .next t ∧ AccIs s t s.wm (v.toNat % modulus s.wm) ∧ NZ t s.wm (v.toNat % modulus s.wm) ∧
      Frame [.c, .pc] [.n, .z] [] s t ∧ Advances i s t :=
  ⟨_, hexec, accIs_accWrite s s.wm v, flaggedTransfer_spec hlen (frame_accWrite s s.wm v) (by decide) rfl⟩

/-- TDC and TSC: the accumulator is written at 16 bits whatever m is. -/
theorem exec_toC {i : Instr} {s : State} {v : Word} (hexec : exec i s = .next (((s.accWrite .w16 v).setNZ .w16 v).advance 1))
    (hlen : (encode s.wm s.wx i).length = 1) :
    ∃ t, exec i s = .next t ∧ t.c = v ∧ NZ t .w16 v.toNat ∧ Frame [.c, .pc] [.n, .z] [] s t ∧ Advances i s t :=
  ⟨_, hexec, rfl, flaggedTransfer_spec hlen (frame_accWrite s .w16 v) (by decide) (Nat.mod_eq_of_lt v.isLt)⟩

theorem exec_tcd (s : State) :
    ∃ t, exec .tcd s = .next t ∧ t.d = s.c ∧ NZ t .w16 s.c.toNat ∧ Frame [.d, .pc] [.n, .z] [] s t ∧ Advances .tcd s t :=
  ⟨_, rfl, rfl, flaggedTransfer_spec rfl (frame_d s s.c) (by decide) (Nat.mod_eq_of_lt s.c.isLt)⟩

/-- XBA: the new A, which n and z tell of, is the old B. -/
theorem exec_xba (s : State) :
    ∃ t, exec .xba s = .next t ∧ t.c.toNat = s.c.toNat % 256 * 256 + s.c.toNat / 256 ∧ NZ t .w8 (t.c.toNat % 256) ∧
      Frame [.c, .pc] [.n, .z] [] s t ∧ Advances .xba s t := by
  have hc : (wordOf (highByte s.c) (lowByte s.c)).toNat = s.c.toNat % 256 * 256 + s.c.toNat / 256 := by simp
  have hnew : (wordOf (highByte s.c) 0).toNat % modulus .w8 = (wordOf (highByte s.c) (lowByte s.c)).toNat % 256 := by simp
  exact ⟨_, rfl, hc, flaggedTransfer_spec rfl (frame_accWrite s .w16 (wordOf (highByte s.c) (lowByte s.c))) (by decide) hnew⟩

/-- TCS and TXS: in emulation mode S stays in page 1. -/
theorem exec_toS {i : Instr} {s : State} {v : Word} (hexec : exec i s = toS v s) (hlen : (encode s.wm s.wx i).length = 1) :
    ∃ t, exec i s = .next t ∧ t.sp.toNat = (if s.emulation then 0x100 + v.toNat % 256 else v.toNat) ∧
      Frame [.sp, .pc] [] [] s t ∧ Advances i s t := by
  refine ⟨_, hexec, ?sp, (frame_sp s _).then_advance 1, advances_advance hlen rfl⟩
  case sp =>
    show (if s.emulation then wordOf (lowByte v) 0x01 else v).toNat = _
    split
    · simp
    · rfl

end Sys2Proof.Machine

open Sys2Proof Sys2Proof.Machine

/-- Settles O47: LDX and LDY are one load, of either index register. -/
theorem loads : Obligations.Loads := by
  intro s s1 src i m
  refine ⟨fun hform hop => ?lda, fun hform hop => ?ldx, fun hform hop => ?ldy⟩
  case lda =>
    obtain ⟨hexec, hlen⟩ := exec_ldaForm hform s
    exact exec_loadAcc hexec hlen hop
  case ldx =>
    obtain ⟨hexec, hlen⟩ := exec_ldxForm hform
    exact exec_loadIdx (r := .x) hexec hlen hop
  case ldy =>
    obtain ⟨hexec, hlen⟩ := exec_ldyForm hform
    exact exec_loadIdx (r := .y) hexec hlen hop

/-- Settles O48: all four are `storeTo`, of a datum whose number is that of the statement. -/
theorem stores : Obligations.Stores := by
  intro s s1 md i ea w v hforms hea hdev
  obtain ⟨hform, rfl, rfl⟩ | ⟨hform, rfl, rfl⟩ | ⟨hform, rfl, rfl⟩ | ⟨hform, rfl, rfl⟩ := hforms
  case inl => exact exec_store (exec_staForm hform s) (accNat_eq_accRead s s.wm).symm hea hdev
  case inr.inl => exact exec_store (exec_stxForm hform s) (toNat_trunc s.wx s.x) hea hdev
  case inr.inr.inl => exact exec_store (exec_styForm hform s) (toNat_trunc s.wx s.y) hea hdev
  case inr.inr.inr => exact exec_store (exec_stzForm hform s) rfl hea hdev

/-- Settles O49: a transfer to X or Y is a step of that register to a given value, one to A is `toAcc`. -/
theorem transfersAtWidth : Obligations.TransfersAtWidth := by
  intro s
  refine ⟨fun e he => ?toX, fun e he => ?toY, fun e he => ?toA⟩
  case toX =>
    obtain ⟨hexec, hlen⟩ : exec e.1 s = toIdx .x e.2 s ∧ (encode s.wm s.wx e.1).length = 1 := by
      fin_cases he <;> exact ⟨rfl, rfl⟩
    exact idxStep_spec (r := .x) hexec hlen
  case toY =>
    obtain ⟨hexec, hlen⟩ : exec e.1 s = toIdx .y e.2 s ∧ (encode s.wm s.wx e.1).length = 1 := by
      fin_cases he <;> exact ⟨rfl, rfl⟩
    exact idxStep_spec (r := .y) hexec hlen
  case toA =>
    obtain ⟨hexec, hlen⟩ : exec e.1 s = toAcc e.2 s ∧ (encode s.wm s.wx e.1).length = 1 := by
      fin_cases he <;> exact ⟨rfl, rfl⟩
    exact exec_toAcc hexec hlen

/-- Settles O50: TDC and TSC write C, TCS and TXS write S, TCD and XBA are each their own. -/
theorem transfersOfSixteenBits : Obligations.TransfersOfSixteenBits := by
  intro s
  refine ⟨exec_tcd s, exec_toC rfl rfl, exec_toC rfl rfl, exec_xba s, fun e he => ?toS⟩
  case toS =>
    obtain ⟨hexec, hlen⟩ : exec e.1 s = toS e.2 s ∧ (encode s.wm s.wx e.1).length = 1 := by
      fin_cases he <;> exact ⟨rfl, rfl⟩
    exact exec_toS hexec hlen
end

section
/-! PROOF. Stack operations (45_stack.md): the pulls into a register, PLP, and the pushes, which all push one list of bytes. -/

namespace Sys2Proof.Machine

/-! ## Pulls into a register (R285 to R287, R290, R291) -/

/-- A pull of `n` bytes into the register `r`: from `s` the pull leads to `s1` with the datum `v`, writing `r` leads to `u`, and
then n and z are set by `v`. -/
theorem pulledRegister_spec {i : Instr} {s s1 u : State} {r : Reg} {n : Nat} {w : Width} {v : Word}
    (hlen : (encode s.wm s.wx i).length = 1) (hpull : Frame [.sp] [] [] s s1) (hpulled : Pulled n s s1)
    (hwrite : Frame [r] [] [] s1 u) (hr : r ∉ [Reg.cfg, .sp, .pc]) (hv : v.toNat < modulus w) :
    let t := (u.setNZ w v).advance 1
    NZ t w v.toNat ∧ Pulled n s t ∧ Frame [r, .sp, .pc] [.n, .z] [] s t ∧ Advances i s t := by
  obtain ⟨hcfg, hsp, hpc⟩ : Reg.cfg ≠ r ∧ Reg.sp ≠ r ∧ Reg.pc ≠ r := by simpa [eq_comm] using hr
  have hframe := (hpull.trans hwrite).trans (frame_setNZ u w v) (by simpa using hcfg)
  have husp : u.sp = s1.sp := hwrite.reg .sp (by simpa using hsp)
  exact ⟨nz_setNZ_of_lt hv u, husp.trans hpulled, (hframe.then_advance 1).weaken (by simp) (by simp) (by simp),
    advances_advance hlen (hframe.reg .pc (by simpa using hpc))⟩

/-- `pullW_of_canPull` with a frame. -/
theorem pullW_spec {s : State} (w : Width) (h : CanPull (widthBits w / 8) s) :
    ∃ v s1, pullW w s = .ok v s1 ∧ v.toNat = s.pulledW w ∧ v.toNat < modulus w ∧ Pulled (widthBits w / 8) s s1 ∧
      Frame [.sp] [] [] s s1 := by
  obtain ⟨v, s1, hpull, hval, hlt, hpulled, hs1⟩ := pullW_of_canPull w h
  exact ⟨v, s1, hpull, hval, hlt, hpulled, hs1 ▸ frame_sp s s1.sp⟩

/-- What the accumulator holds since a pull that leaves it alone, it holds since before. -/
theorem AccIs.of_c_eq {s s1 t : State} {w : Width} {r : Nat} (h : AccIs s1 t w r) (hc : s1.c = s.c) : AccIs s t w r := by
  unfold AccIs at *
  rwa [hc] at h

theorem exec_pla {s : State} (h : CanPull (widthBits s.wm / 8) s) :
    ∃ t, exec .pla s = .next t ∧ AccIs s t s.wm (s.pulledW s.wm) ∧ NZ t s.wm (s.pulledW s.wm) ∧
      Pulled (widthBits s.wm / 8) s t ∧ Frame [.c, .sp, .pc] [.n, .z] [] s t ∧ Advances .pla s t := by
  obtain ⟨v, s1, hpull, hval, hlt, hpulled, hframe⟩ := pullW_spec s.wm h
  have hexec : exec .pla s = .next (((s1.accWrite s.wm v).setNZ s.wm v).advance 1) := by
    show execPla s = _
    rw [execPla, hpull, Access.andThen_ok]
  have hacc : AccIs s1 (s1.accWrite s.wm v) s.wm v.toNat := accIs_of_accWrite rfl hlt rfl
  rw [← hval]
  exact ⟨_, hexec, hacc.of_c_eq (hframe.reg .c (by decide)),
    pulledRegister_spec rfl hframe hpulled (frame_accWrite s1 s.wm v) (by decide) hlt⟩

/-- PLX and PLY: the datum has the width it was pulled at, so the register takes the whole of it. -/
theorem exec_pullIdx {i : Instr} {r : IdxReg} {s : State} (hexec : exec i s = pullIdx r s)
    (hlen : (encode s.wm s.wx i).length = 1) (h : CanPull (widthBits s.wx / 8) s) :
    ∃ t, exec i s = .next t ∧ (t.idx r).toNat = s.pulledW s.wx ∧ NZ t s.wx (s.pulledW s.wx) ∧
      Pulled (widthBits s.wx / 8) s t ∧ Frame [idxPart r, .sp, .pc] [.n, .z] [] s t ∧ Advances i s t := by
  obtain ⟨v, s1, hpull, hval, hlt, hpulled, hframe⟩ := pullW_spec s.wx h
  obtain ⟨hidx, -⟩ := idxLoad_spec s1 r hlt
  rw [← hval]
  refine ⟨_, ?exec, ?idx,
    pulledRegister_spec hlen hframe hpulled (frame_idxWrite s1 r s.wx v) (by cases r <;> decide) hlt⟩
  case exec => rw [hexec, pullIdx, hpull, Access.andThen_ok]
  case idx => cases r <;> exact congrArg BitVec.toNat hidx

theorem frame_dbr (s : State) (b : Byte) : Frame [.dbr] [] [] s { s with dbr := b } :=
  ⟨fun q hq => by cases q <;> first | rfl | exact absurd (List.mem_singleton_self _) hq, fun _ _ => rfl, fun _ _ => rfl⟩

theorem exec_plb {s : State} (h : CanPull 1 s) :
    ∃ t, exec .plb s = .next t ∧ t.dbr.toNat = s.pulledW .w8 ∧ NZ t .w8 (s.pulledW .w8) ∧ Pulled 1 s t ∧
      Frame [.dbr, .sp, .pc] [.n, .z] [] s t ∧ Advances .plb s t := by
  have hexec : exec .plb s = .next ((({ s.moveS 1 with dbr := s.pulledByte 1 } : State).setNZ .w8
      (wordOf (s.pulledByte 1) 0)).advance 1) := by
    show execPlb s = _
    rw [execPlb, pull8_of_canPull (h 0 (by decide)), Access.andThen_ok]
  have hval : (wordOf (s.pulledByte 1) 0).toNat = s.pulledW .w8 := by simp [State.pulledW]
  have hlt : (wordOf (s.pulledByte 1) 0).toNat < modulus .w8 := hval ▸ (s.pulledByte 1).isLt
  rw [← hval]
  exact ⟨_, hexec, hval.symm,
    pulledRegister_spec rfl (frame_moveS s 1) (pulled_one s) (frame_dbr _ (s.pulledByte 1)) (by decide) hlt⟩

/-- PLD pulls 16 bits whatever m and x are. -/
theorem exec_pld {s : State} (h : CanPull 2 s) :
    ∃ t, exec .pld s = .next t ∧ t.d.toNat = s.pulledW .w16 ∧ NZ t .w16 (s.pulledW .w16) ∧ Pulled 2 s t ∧
      Frame [.d, .sp, .pc] [.n, .z] [] s t ∧ Advances .pld s t := by
  obtain ⟨v, s1, hpull, hval, hlt, hpulled, hframe⟩ := pullW_spec .w16 h
  have hexec : exec .pld s = .next ((({ s1 with d := v } : State).setNZ .w16 v).advance 1) := by
    show (pullW .w16 s).andThen _ = _
    rw [hpull, Access.andThen_ok]
  rw [← hval]
  exact ⟨_, hexec, rfl, pulledRegister_spec rfl hframe hpulled (frame_d s1 v) (by decide) hlt⟩

/-! ## PLP (R289) -/

/-- A load of P may change every flag. -/
theorem frame_loadP (s : State) (v : Byte) : Frame [.x, .y] allFlags [] s (s.loadP v) :=
  ⟨regsBut_loadP v s, fun f hf => absurd (by cases f <;> decide) hf, fun a _ => s.cell_loadP v a⟩

/-- The pull before a load of P moves S alone, so P is loaded as it would be without it. -/
theorem loadsP_loadP_moveS (v : Byte) (s : State) (n : Word) : LoadsP v s ((s.moveS n).loadP v) := by
  simpa [LoadsP] using loadsP_loadP v (s.moveS n)

theorem exec_plp {s : State} (h : CanPull 1 s) :
    ∃ t, exec .plp s = .next t ∧ LoadsP (s.pulledByte 1) s t ∧ Pulled 1 s t ∧ RegsBut [.x, .y, .sp, .pc] s t ∧
      MemBut [] s t ∧ Advances .plp s t := by
  have hexec : exec .plp s = .next (((s.moveS 1).loadP (s.pulledByte 1)).advance 1) := by
    show execPlp s = _
    rw [execPlp, pull8_of_canPull (h 0 (by decide)), Access.andThen_ok]
  have hload := frame_loadP (s.moveS 1) (s.pulledByte 1)
  have hframe := (frame_moveS s 1).trans hload
  obtain ⟨hregs, -, hmem⟩ := (hframe.then_advance 1).weaken (rs' := [.x, .y, .sp, .pc]) (by simp) (fun _ => id) fun _ => id
  have hsp : ((s.moveS 1).loadP (s.pulledByte 1)).sp = (s.moveS 1).sp := hload.reg .sp (by decide)
  exact ⟨_, hexec, loadsP_loadP_moveS (s.pulledByte 1) s 1, hsp.trans (pulled_one s), hregs, hmem,
    advances_advance rfl (hframe.reg .pc (by decide))⟩

/-! ## Pushes (R292 to R301) -/

/-- The bytes of data of width `w`, in the order they are pushed. -/
def bytesToPush : Width → Word → List Byte
  | .w8, v => [lowByte v]
  | .w16, v => [highByte v, lowByte v]

theorem pushW_eq_pushAll_bytesToPush (w : Width) (v : Word) (s : State) : pushW w v s = pushAll (bytesToPush w v) s := by
  cases w
  case w8 => exact pushW_eq_pushAll .w8 v s
  case w16 => exact pushW_eq_pushAll .w16 v s

/-- In `s` the instruction `i` of `n` bytes pushes the bytes `bs` and does nothing else. -/
structure PushesOnly (i : Instr) (n : Nat) (bs : List Byte) (s : State) : Prop where
  exec_eq : exec i s = pushing (pushAll bs s) n
  encode_length : (encode s.wm s.wx i).length = n
  bytes_le : bs.length ≤ 2

theorem PushesOnly.of_push8 {i : Instr} {n : Nat} {b : Byte} {s : State} (hexec : exec i s = pushing (push8 b s) n)
    (hlen : (encode s.wm s.wx i).length = n) : PushesOnly i n [b] s :=
  ⟨by rw [hexec, push8_eq_pushAll], hlen, by simp⟩

theorem PushesOnly.of_pushW {i : Instr} {n : Nat} {w : Width} {v : Word} {s : State}
    (hexec : exec i s = pushing (pushW w v s) n) (hlen : (encode s.wm s.wx i).length = n) :
    PushesOnly i n (bytesToPush w v) s :=
  ⟨by rw [hexec, pushW_eq_pushAll_bytesToPush], hlen, by cases w <;> simp [bytesToPush]⟩

/-- What every push instruction does where no device stands: the bytes go to their slots, and PC moves. -/
theorem PushesOnly.spec {i : Instr} {n : Nat} {bs : List Byte} {s : State} (h : PushesOnly i n bs s)
    (hforced : s.emulationForced = true) (hcan : CanPush bs.length s) :
    ∃ t, exec i s = .next t ∧ PushedBytes bs s t ∧ RegsBut [.sp, .pc] s t ∧ FlagsBut [] s t ∧ Advances i s t := by
  have hle := h.bytes_le
  obtain ⟨t, hpush, hbytes, hframe⟩ := pushAll_spec hforced (by omega) hcan
  obtain ⟨hregs, hflags, -⟩ := hframe.then_advance n
  refine ⟨t.advance n, ?_, hbytes.then_frame (frame_pc t _) (by decide), hregs, hflags,
    advances_advance h.encode_length (hframe.reg .pc (by decide))⟩
  rw [h.exec_eq, hpush, pushing, Access.andThen_ok]

/-- The number that PER pushes is the target of a long branch (R298). -/
theorem relLong_eq_ofNat (s : State) (rel : Word) : s.relLong rel = BitVec.ofNat 16 (s.pc.toNat + 3 + rel.toNat) :=
  BitVec.eq_of_toNat_eq (by rw [toNat_relLong, BitVec.toNat_ofNat])

/-- PEI: the datum is read from the direct page without the page wrap (R135, R297). -/
theorem exec_pei {s : State} {o1 : Byte} (h816 : s.is816 = true)
    (h0 : Backed s (BitVec.ofNat 24 ((s.d.toNat + o1.toNat) % 65536)))
    (h1 : Backed s (BitVec.ofNat 24 ((s.d.toNat + o1.toNat + 1) % 65536))) :
    exec (.pei o1) s = pushing (push16 (s.pair (BitVec.ofNat 24 ((s.d.toNat + o1.toNat) % 65536))
      (BitVec.ofNat 24 ((s.d.toNat + o1.toNat + 1) % 65536))) s) 2 := by
  show execPei o1 s = _
  rw [execPei, State.dpLongAddr_eq h816, read16_bank h0 h1, Access.andThen_ok]

end Sys2Proof.Machine

open Sys2Proof Sys2Proof.Machine

/-- Settles O51: PLX and PLY are one pull, into either index register; the others are each their own. -/
theorem pullInstructions : Obligations.PullInstructions := by
  intro s
  exact ⟨exec_pla, exec_pullIdx (r := .x) rfl rfl, exec_pullIdx (r := .y) rfl rfl, exec_plb, exec_pld, exec_plp⟩

/-- Settles O52: each of the ten pushes the bytes of one datum, at a width of its own, and does nothing else. -/
theorem pushInstructions : Obligations.PushInstructions := by
  intro s hforced bytesOf
  -- the statement's own list of bytes is the one that the lemmas speak of
  have hbytes : bytesOf = bytesToPush := by funext w v; cases w <;> rfl
  clear_value bytesOf
  subst hbytes
  refine ⟨fun e he hcan => ?registers, fun k hcan e he => ?constants, fun o1 hcan h816 h0 h1 => ?pei⟩
  case registers =>
    have hpush : PushesOnly e.1 1 e.2 s := by
      simp only [List.mem_cons, List.not_mem_nil, or_false] at he
      obtain rfl | rfl | rfl | rfl | rfl | rfl | rfl := he
      · exact .of_pushW rfl rfl
      · exact .of_pushW rfl rfl
      · exact .of_pushW rfl rfl
      · exact .of_push8 rfl rfl
      · exact .of_pushW (w := .w16) (v := s.d) rfl rfl
      · exact .of_push8 rfl rfl
      · exact .of_push8 rfl rfl
    exact hpush.spec hforced hcan
  case constants =>
    have hpush : PushesOnly e.1 3 (bytesToPush .w16 e.2) s := by
      simp only [List.mem_cons, List.not_mem_nil, or_false] at he
      obtain rfl | rfl := he
      · exact .of_pushW rfl rfl
      · exact .of_pushW (by rw [← relLong_eq_ofNat]; rfl) rfl
    exact hpush.spec hforced hcan
  case pei =>
    have hpush := PushesOnly.of_pushW (w := .w16) (exec_pei h816 h0 h1) rfl
    exact hpush.spec hforced hcan
end

section
/-! PROOF. Interrupts (46_interrupt_instructions.md): entry, which BRK and COP share with IRQ and NMI, as its pushes and then
the load of PC from the vector; RTI as its pulls and then the load of P; and what a step does while Waiting and Stopped. -/

namespace Sys2Proof.Machine

/-! ## The vector and the frame (60_exceptions.md R340, R341) -/

theorem addrOf_vector (k : IntKind) (s : State) : addrOf 0 (vector k s.emulation) = s.vectorAddr k := by
  unfold State.vectorAddr
  cases k <;> cases s.emulation <;> rfl

/-- No vector lies at the end of a bank, so its second byte follows the first on every variant. -/
theorem State.succ_lin_vectorAddr (s t : State) (k : IntKind) : t.succ (s.vectorAddr k) .lin = s.vectorAddr k + 1 := by
  have hbank : t.succ (s.vectorAddr k) .bank = s.vectorAddr k + 1 := by
    unfold State.vectorAddr
    cases k <;> cases s.emulation <;> rfl
  rw [succ_lin, hbank, ite_self]

theorem length_frameBytes (s : State) (k : IntKind) (ret : Word) :
    (s.frameBytes k ret).length = if s.emulation then 3 else 4 := by
  unfold State.frameBytes
  cases s.emulation <;> rfl

/-! ## Interrupt entry (60_exceptions.md R340 to R344) -/

/-- Entry as its pushes, the change of the flags and PBR, and the load of PC. -/
theorem enter_eq_pushAll (k : IntKind) (ret : Word) (s : State) :
    enter k ret s = (pushAll (s.frameBytes k ret) s).andThen fun _ t =>
      (read16 (s.vectorAddr k) .lin t.enterFlags).andThen fun target u => .next { u with pc := target } := by
  rw [← pushFrame_eq_pushAll, ← addrOf_vector]
  rfl

theorem frame_enterFlags (s : State) : Frame [.pbr] [.i, .d] [] s s.enterFlags := by
  refine ⟨fun q hq => ?regs, fun f hf => ?flags, .of_mem (by simp) (by simp)⟩
  case regs => cases q <;> simp_all [Reg.Same]
  case flags =>
    obtain ⟨hi, hd⟩ : f ≠ .i ∧ f ≠ .d := by simpa using hf
    rw [State.flag_enterFlags, if_neg hi, if_neg fun h => hd h.1]

/-- What entry does to i, d and PBR, on each variant (R343). -/
theorem enterFlags_spec (s : State) :
    s.enterFlags.flag .i = true ∧ (s.cfg.variant ≠ .v6502 → s.enterFlags.flag .d = false) ∧
      (s.cfg.variant = .v6502 → s.enterFlags.flag .d = s.flag .d) ∧ (s.is816 = true → s.enterFlags.pbr = 0) ∧
      (s.is816 = false → s.enterFlags.pbr = s.pbr) := by
  refine ⟨by rw [State.flag_enterFlags, if_pos rfl], fun hv => ?d_clear, fun hv => ?d_kept, fun h8 => ?_, fun h8 => ?_⟩
  case d_clear => rw [State.flag_enterFlags, if_neg (by decide), if_pos ⟨rfl, hv⟩]
  case d_kept => rw [State.flag_enterFlags, if_neg (by decide), if_neg fun h => h.2 hv]
  all_goals simp [h8]

/-- Interrupt entry of every kind, where no device stands under the frame and the vector is in RAM or ROM. -/
theorem enter_enters {k : IntKind} {s : State} (ret : Word) (hforced : s.emulationForced = true) (hcan : CanEnter k s) :
    ∃ t, enter k ret s = .next t ∧ Enters k ret s t := by
  obtain ⟨hpush, h0, h1⟩ := hcan
  have hlen := length_frameBytes s k ret
  obtain ⟨t, hpushed, hbytes, hframe⟩ := pushAll_spec hforced (by rw [hlen]; split <;> decide) (hlen ▸ hpush)
  have hc : t.cfg = s.cfg := hframe.reg .cfg (by decide)
  have hd : t.flag .d = s.flag .d := hframe.flag .d (by decide)
  have hpbr : t.pbr = s.pbr := hframe.reg .pbr (by decide)
  have hread : read16 (s.vectorAddr k) .lin t.enterFlags =
      .ok (t.enterFlags.pair (s.vectorAddr k) (s.vectorAddr k + 1)) t.enterFlags := by
    rw [← s.succ_lin_vectorAddr t.enterFlags k] at h1 ⊢
    exact read16_of_backed (by rwa [Backed, State.enterFlags_cfg, hc]) (by rwa [Backed, State.enterFlags_cfg, hc])
  have hspec := enterFlags_spec t
  rw [hc, hd, State.is816_congr hc, hpbr] at hspec
  obtain ⟨hi, hdClear, hdKept, hpbrZero, hpbrKept⟩ := hspec
  have hafter := (frame_enterFlags t).trans (frame_pc _ (t.enterFlags.pair (s.vectorAddr k) (s.vectorAddr k + 1)))
  obtain ⟨hregs, hflags, -⟩ := hframe.trans hafter
  refine ⟨_, ?_, hbytes.then_frame hafter (by decide), hi, hdClear, hdKept, hpbrZero, hpbrKept, rfl, hregs, hflags⟩
  rw [enter_eq_pushAll, hpushed, Access.andThen_ok, hread, Access.andThen_ok]

/-! ## RTI (R312) -/

theorem State.pullSlot_loadP (s : State) (v : Byte) (k : Nat) : (s.loadP v).pullSlot k = s.pullSlot k := by
  simp [State.pullSlot]

theorem State.pulledByte_loadP (s : State) (v : Byte) (k : Nat) : (s.loadP v).pulledByte k = s.pulledByte k := by
  simp [State.pulledByte, State.pullSlot_loadP]

theorem backed_loadP {s : State} {v : Byte} {a : Addr} : Backed (s.loadP v) a ↔ Backed s a := by simp [Backed]

/-- Pulls in a row count together, as long as the mode stays. -/
theorem Pulled.trans {m n : Nat} {s t u : State} (h : Pulled m s t) (h' : Pulled n t u) (he : t.emulation = s.emulation) :
    Pulled (m + n) s u := by
  unfold Pulled at *
  rw [h', h, he]
  apply BitVec.eq_of_toNat_eq
  cases s.emulation <;> simp <;> omega

theorem LoadsP.congr {v : Byte} {s t u : State} (h : LoadsP v s t) (hp : u.p = t.p) (hx : u.x = t.x) (hy : u.y = t.y) :
    LoadsP v s u := by
  unfold LoadsP
  rwa [hp, hx, hy]

/-- The state in which RTI has pulled P and the two bytes of PC, and has loaded P. -/
def State.rtiPulled (s : State) : State := (((s.moveS 1).loadP (s.pulledByte 1)).moveS 1).moveS 1

theorem loadsP_rtiPulled (s : State) : LoadsP (s.pulledByte 1) s s.rtiPulled :=
  (loadsP_loadP_moveS (s.pulledByte 1) s 1).congr (by simp [State.rtiPulled]) (by simp [State.rtiPulled])
    (by simp [State.rtiPulled])

theorem pulled_rtiPulled (s : State) : Pulled 3 s s.rtiPulled := by
  have hstatus : Pulled 1 s ((s.moveS 1).loadP (s.pulledByte 1)) := by simpa [Pulled] using pulled_one s
  exact (hstatus.trans (pulled_one _) (by simp)).trans (pulled_one _) (by simp)

theorem frame_rtiPulled (s : State) : Frame [.x, .y, .sp] allFlags [] s s.rtiPulled :=
  ((((frame_moveS s 1).trans (frame_loadP _ (s.pulledByte 1))).trans (frame_moveS _ 1)).trans (frame_moveS _ 1)).weaken
    (by simp) (by simp) (by simp)

theorem State.emulation_rtiPulled (s : State) : s.rtiPulled.emulation = s.emulation := by simp [State.rtiPulled]

theorem State.pullSlot_rtiPulled (s : State) (k : Nat) : s.rtiPulled.pullSlot k = s.pullSlot (k + 3) := by
  rw [State.rtiPulled, pullSlot_moveS_one, pullSlot_moveS_one, State.pullSlot_loadP, pullSlot_moveS_one]

theorem State.pulledByte_rtiPulled (s : State) (k : Nat) : s.rtiPulled.pulledByte k = s.pulledByte (k + 3) := by
  rw [State.rtiPulled, pulledByte_moveS_one, pulledByte_moveS_one, State.pulledByte_loadP, pulledByte_moveS_one]

/-- RTI after its first three pulls: only native mode has a fourth. -/
theorem exec_rti {s : State} (h : CanPull 3 s) :
    exec .rti s =
      if s.emulation then .next { s.rtiPulled with pc := wordOf (s.pulledByte 2) (s.pulledByte 3) }
      else (pull8 s.rtiPulled).andThen fun bank t =>
        .next { t with pc := wordOf (s.pulledByte 2) (s.pulledByte 3), pbr := bank } := by
  have hpc : CanPull 2 ((s.moveS 1).loadP (s.pulledByte 1)) := fun k hk => by
    rw [backed_loadP, backed_moveS, State.pullSlot_loadP, pullSlot_moveS_one]
    exact h (k + 1) (by omega)
  show returnFromInterrupt s = _
  rw [returnFromInterrupt, pull8_of_canPull (h 0 (by decide)), Access.andThen_ok, pull16_of_canPull hpc, Access.andThen_ok,
    State.pulledByte_loadP, State.pulledByte_loadP, pulledByte_moveS_one, pulledByte_moveS_one]
  rfl

/-- The end of RTI in either mode: from a state with P loaded and `n` bytes pulled, PC and PBR are written. -/
theorem returned_spec {v : Byte} {n : Nat} {s t : State} (target : Word) (bank : Byte) (hload : LoadsP v s t)
    (hpulled : Pulled n s t) (hframe : Frame [.x, .y, .sp] allFlags [] s t) :
    let u : State := { t with pc := target, pbr := bank }
    LoadsP v s u ∧ u.pc = target ∧ u.pbr = bank ∧ Pulled n s u ∧ RegsBut [.x, .y, .sp, .pc, .pbr] s u ∧ MemBut [] s u := by
  obtain ⟨hregs, -, hmem⟩ := hframe.trans (frame_pc_pbr t target bank)
  exact ⟨hload, rfl, rfl, hpulled, hregs, hmem⟩

theorem exec_rti_of_emulation {s : State} (he : s.emulation = true) (h : CanPull 3 s) :
    exec .rti s = .next { s.rtiPulled with pc := wordOf (s.pulledByte 2) (s.pulledByte 3), pbr := s.pbr } := by
  have hpbr : s.rtiPulled.pbr = s.pbr := (frame_rtiPulled s).reg .pbr (by decide)
  rw [exec_rti h, if_pos he, ← hpbr]

theorem exec_rti_of_native {s : State} (he : s.emulation = false) (h : CanPull 4 s) :
    exec .rti s = .next { s.rtiPulled.moveS 1 with
      pc := wordOf (s.pulledByte 2) (s.pulledByte 3), pbr := s.pulledByte 4 } := by
  have hbank : Backed s.rtiPulled (s.rtiPulled.pullSlot 1) := by
    have hc : s.rtiPulled.cfg = s.cfg := (frame_rtiPulled s).reg .cfg (by decide)
    rw [Backed, hc, State.pullSlot_rtiPulled]
    exact h 3 (by decide)
  rw [exec_rti fun k hk => h k (by omega), if_neg (by simp [he]), pull8_of_canPull hbank, Access.andThen_ok,
    State.pulledByte_rtiPulled]

/-! ## The boundary while Stopped and while Waiting (R313, 47_miscellaneous.md R327) -/

theorem step_of_stopped {s : State} (hrun : s.run = .stopped) (hreset : s.nextInput.reset = false) :
    step s = .next s.latchInput := by
  rw [step, boundary, State.latchInput_run, hrun]
  dsimp only
  rw [boundaryStopped, if_neg (by simp [hreset])]

theorem step_of_waiting {s : State} (hrun : s.run = .waiting) (hreset : s.nextInput.reset = false)
    (habort : s.nextInput.abort = false) :
    step s =
      if s.latchInput.nmiPending then takeNmi { s.latchInput with run := .running }
      else if s.latchInput.irqLine then
        if s.latchInput.flag .i then .next { s.latchInput with run := .running }
        else enter .irq s.pc { s.latchInput with run := .running }
      else .next s.latchInput := by
  rw [step, boundary, State.latchInput_run, hrun]
  dsimp only
  rw [boundaryWaiting, if_neg (by simp [hreset]), if_neg (by simp [habort])]
  rfl

end Sys2Proof.Machine

open Sys2Proof Sys2Proof.Machine

/-- Settles O53: both enter with the address after the signature byte, which is never looked at. -/
theorem softwareInterrupts : Obligations.SoftwareInterrupts :=
  fun s _ hforced => ⟨enter_enters (s.pc + 2) hforced, enter_enters (s.pc + 2) hforced⟩

/-- Settles O55: three pulls and a load of P in either mode, and in native mode a fourth pull, of PBR. -/
theorem returnFromInterrupt : Obligations.ReturnFromInterrupt := by
  intro s hcan
  have hload := loadsP_rtiPulled s
  have hpulled := pulled_rtiPulled s
  have hframe := frame_rtiPulled s
  cases he : s.emulation
  case true =>
    simp only [he, if_true] at hcan ⊢
    exact ⟨_, exec_rti_of_emulation he hcan, returned_spec _ _ hload hpulled hframe⟩
  case false =>
    simp only [he, Bool.false_eq_true, if_false] at hcan ⊢
    have hload' := hload.congr (u := s.rtiPulled.moveS 1) (by simp) (by simp) (by simp)
    have hpulled' := hpulled.trans (pulled_one _) s.emulation_rtiPulled
    have hframe' := (hframe.trans (frame_moveS _ 1)).weaken (rs' := [.x, .y, .sp]) (by simp) (fun _ => id) fun _ => id
    exact ⟨_, exec_rti_of_native he hcan, returned_spec _ _ hload' hpulled' hframe'⟩

/-- Settles O18: with no RESET and no ABORT, what is left of the two boundaries. -/
theorem waitingAndStopped : Obligations.WaitingAndStopped := by
  intro s hreset habort
  refine ⟨fun hrun => step_of_stopped hrun hreset, fun hrun => ?_⟩
  rw [step_of_waiting hrun hreset habort]
  simp only [State.latchInput_nmiPending, Bool.or_eq_true, State.latchInput_irqLine, State.flag_latchInput]
  rfl
end

section
/-! PROOF. Exceptions (60_exceptions.md) and reset (70_reset_and_hazards.md): RTI gives back what interrupt entry pushed, what
comes at a boundary while Running, and what a RESET event leaves. -/

namespace Sys2Proof.Machine

/-! ## RTI after interrupt entry (R340, R344, R351, R352) -/

theorem getFlag_and (p k : Byte) (f : Flag) : getFlag (p &&& k) f = (getFlag p f && getFlag k f) := BitVec.getLsbD_and

/-- The byte pushed in emulation mode differs from P in bits 5 and 4 alone, and these read 1 after the pull, as they did
before. -/
theorem loaded_frameP_of_emulation {s : State} (he : s.emulation = true) (hm : s.flag .m = true) (hx : s.flag .x = true)
    (k : IntKind) : (s.frameP k &&& 0xCF) ||| 0x30 = s.p := by
  have hsoft : ((s.p ||| 0x30) &&& 0xCF) ||| 0x30 = s.p := status_ext fun f => by
    rw [getFlag_or, getFlag_and, getFlag_or]
    cases f <;> simp_all [getFlag, State.flag, Flag.bit]
  have hhard : (((s.p ||| 0x20) &&& 0xEF) &&& 0xCF) ||| 0x30 = s.p := status_ext fun f => by
    rw [getFlag_or, getFlag_and, getFlag_and, getFlag_or]
    cases f <;> simp_all [getFlag, State.flag, Flag.bit]
  cases k <;> simpa only [State.frameP, he, if_true]

theorem frameP_of_native {s : State} (he : s.emulation = false) (k : IntKind) : s.frameP k = s.p := by
  cases k <;> simp [State.frameP, he]

theorem toNat_lt_of_highByte {w : Word} (h : highByte w = 0) : w.toNat < 256 := by
  have hdiv : w.toNat / 256 = 0 := by rw [← toNat_highByte, h]; rfl
  omega

/-- A load of P keeps X and Y where they have no high byte to lose. -/
theorem LoadsP.idx_of_narrow {v : Byte} {s t : State} (h : LoadsP v s t)
    (hn : s.emulation = false → getFlag v .x = true → highByte s.x = 0 ∧ highByte s.y = 0) : t.x = s.x ∧ t.y = s.y := by
  obtain ⟨-, hx, hy⟩ := h
  by_cases hc : s.emulation = false ∧ v.getLsbD 4 = true
  case neg => rw [if_neg hc] at hx hy; exact ⟨BitVec.eq_of_toNat_eq hx, BitVec.eq_of_toNat_eq hy⟩
  case pos =>
    rw [if_pos hc] at hx hy
    obtain ⟨hx0, hy0⟩ := hn hc.1 hc.2
    exact ⟨BitVec.eq_of_toNat_eq (hx.trans (Nat.mod_eq_of_lt (toNat_lt_of_highByte hx0))),
      BitVec.eq_of_toNat_eq (hy.trans (Nat.mod_eq_of_lt (toNat_lt_of_highByte hy0)))⟩

/-- Pulling P as entry pushed it, in a state of the same mode, X and Y, gives back P, X and Y. -/
theorem LoadsP.restores {s t u : State} {k : IntKind} (h : LoadsP (s.frameP k) t u) (hs : Tidy s)
    (he : t.emulation = s.emulation) (hx : t.x = s.x) (hy : t.y = s.y) : u.p = s.p ∧ u.x = s.x ∧ u.y = s.y := by
  have hidx := h.idx_of_narrow
  obtain ⟨hp, -, -⟩ := h
  rw [he, hx, hy] at hidx
  rw [he] at hp
  cases hem : s.emulation
  case true =>
    obtain ⟨hm, hxf⟩ := hs.flags hem
    rw [hem, if_pos rfl, loaded_frameP_of_emulation hem hm hxf] at hp
    exact ⟨hp, hidx fun hn => absurd hn (by simp [hem])⟩
  case false =>
    rw [hem, if_neg (by decide), frameP_of_native hem] at hp
    rw [frameP_of_native hem] at hidx
    exact ⟨hp, hidx fun _ hxf => (idxNarrow_iff s).1 hs.idx (.inr hxf)⟩

/-- What the pulls of RTI find after the frame of an interrupt was pushed into RAM. -/
theorem PushedBytes.pulled_frame {k : IntKind} {ret : Word} {s t : State} (h : PushedBytes (s.frameBytes k ret) s t)
    (he : t.emulation = s.emulation)
    (hram : ∀ n < (s.frameBytes k ret).length, kindAt s.cfg (s.pushSlot n) = .ram) :
    t.pulledByte 1 = s.frameP k ∧ t.pulledByte 2 = lowByte ret ∧ t.pulledByte 3 = highByte ret ∧
      (s.emulation = false → t.pulledByte 4 = s.pbr) := by
  cases hem : s.emulation
  case true =>
    have hframe : s.frameBytes k ret = [highByte ret, lowByte ret, s.frameP k] := by simp [State.frameBytes, hem]
    rw [hframe] at h hram
    have hpull := h.pulledByte he (by simp) hram
    exact ⟨hpull 2 (by simp), hpull 1 (by simp), hpull 0 (by simp), fun hn => by cases hn⟩
  case false =>
    have hframe : s.frameBytes k ret = [s.pbr, highByte ret, lowByte ret, s.frameP k] := by simp [State.frameBytes, hem]
    rw [hframe] at h hram
    have hpull := h.pulledByte he (by simp) hram
    exact ⟨hpull 3 (by simp), hpull 2 (by simp), hpull 1 (by simp), fun _ => hpull 0 (by simp)⟩

/-! ## The boundary while Running (R346, R350) -/

theorem step_of_running {s : State} (hrun : s.run = .running) : step s = boundaryRunning s.nextInput s.latchInput := by
  rw [step, boundary, State.latchInput_run, hrun]

theorem boundaryRunning_unasserted {inp : EnvInput} (s : State) (habort : inp.abort = false) (hpin : inp.overflowPin = false) :
    boundaryRunning inp s =
      if inp.reset then resetEvent s
      else if s.nmiPending then takeNmi s
      else if s.irqLine && !s.flag .i then enter .irq s.pc s
      else executeNext s := by
  rw [boundaryRunning, habort, hpin]
  rfl

/-! ## A RESET event (70_reset_and_hazards.md R380) -/

/-- RESET comes first in every run state. -/
theorem step_of_reset {s : State} (h : s.nextInput.reset = true) : step s = resetEvent s.latchInput := by
  rw [step, boundary]
  cases s.latchInput.run
  case running => exact if_pos h
  case waiting => exact if_pos h
  case stopped => exact if_pos h

/-- The flags that RESET does not draw are those of the status byte 0x34. -/
theorem State.flag_resetRegisters (s : State) {f : Flag} (hf : f ∉ [.n, .v, .z, .c])
    (hd : f = .d → s.cfg.variant ≠ .v6502) : s.resetRegisters.flag f = getFlag 0x34 f := by
  obtain ⟨hn, hv, hz, hc⟩ : f ≠ .n ∧ f ≠ .v ∧ f ≠ .z ∧ f ≠ .c := by simpa using hf
  unfold State.resetRegisters
  dsimp only
  split
  case isTrue h6502 =>
    have hd : f ≠ .d := fun hfd => hd hfd h6502
    simp only [flag_drawFlag, hn, hv, hz, hc, hd, if_false]; rfl
  case isFalse => simp only [flag_drawFlag, hn, hv, hz, hc, if_false]; rfl

/-- What RESET gives the registers, whatever is drawn for the bytes that it leaves free. -/
theorem State.resetRegisters_spec (s : State) :
    let t := s.resetRegisters
    t.run = .running ∧ t.nmiPending = false ∧ t.e = true ∧ highByte t.x = 0 ∧ highByte t.y = 0 ∧ highByte t.sp = 0x01 ∧
      t.d = 0 ∧ t.dbr = 0 ∧ t.pbr = 0 ∧ t.mem = s.mem := by
  unfold State.resetRegisters
  dsimp only
  split <;> exact ⟨rfl, rfl, rfl, highByte_wordOf _ _, highByte_wordOf _ _, highByte_wordOf _ _, rfl, rfl, rfl, rfl⟩

theorem State.cell_resetRegisters (s : State) (a : Addr) : s.resetRegisters.cell a = s.cell a := by
  obtain ⟨-, -, -, -, -, -, -, -, -, hmem⟩ := s.resetRegisters_spec
  exact State.cell_congr s.resetRegisters_cfg hmem a

/-- With the vector in RAM or ROM, RESET loads PC from the bytes there and writes nothing. -/
theorem resetEvent_of_backed {s : State} (h0 : Backed s 0x00FFFC) (h1 : Backed s 0x00FFFD) :
    resetEvent s = .next { s.resetRegisters with pc := s.pair 0x00FFFC 0x00FFFD } := by
  have hvector : addrOf 0 0xFFFC = 0x00FFFC := rfl
  have hsucc : s.resetRegisters.succ 0x00FFFC .lin = 0x00FFFD := by
    rw [succ_lin, show s.resetRegisters.succ 0x00FFFC .bank = 0x00FFFD from rfl]; exact ite_self _
  have hread := read16_of_backed (s := s.resetRegisters) (a := 0x00FFFC) (wrap := .lin)
    (by rwa [Backed, s.resetRegisters_cfg]) (by rwa [hsucc, Backed, s.resetRegisters_cfg])
  rw [hsucc, s.cell_resetRegisters, s.cell_resetRegisters] at hread
  rw [resetEvent, hvector, hread, Access.andThen_ok]
  rfl

end Sys2Proof.Machine

open Sys2Proof Sys2Proof.Machine

/-- Settles O54: BRK and COP share the sequence with IRQ and NMI, so it was shown for every kind. -/
theorem interruptEntry : Obligations.InterruptEntry := fun _ _ ret hforced hcan => enter_enters ret hforced hcan

/-- Settles O56: the pulls of RTI find the frame that entry pushed, and loading P from it changes neither P, X nor Y. -/
theorem returnUndoesEntry : Obligations.ReturnUndoesEntry := by
  intro s k ret hinv hram hv0 hv1
  obtain ⟨htidy, -⟩ := (inv_iff s).1 hinv
  obtain ⟨t, henter, hbytes, -, -, -, -, -, -, hregs, -⟩ :=
    enter_enters ret htidy.forced ⟨fun n hn => by simp [hram n hn], hv0, hv1⟩
  have hc : t.cfg = s.cfg := hregs .cfg (by decide)
  have he : t.emulation = s.emulation := State.emulation_congr hc (hregs .e (by decide))
  have hlen := length_frameBytes s k ret
  have hle : (s.frameBytes k ret).length ≤ 256 := by rw [hlen]; split <;> decide
  rw [← hlen] at hram
  have hcan := hbytes.canPull hc he hle hram
  have hpushed := hbytes.pushed
  rw [hlen, ← he] at hcan hpushed
  obtain ⟨u, hrti, hload, hpc, hpbr, hpulled, -⟩ := returnFromInterrupt t hcan
  obtain ⟨h1, h2, h3, h4⟩ := hbytes.pulled_frame he hram
  rw [h1] at hload
  rw [h2, h3, wordOf_lowByte_highByte] at hpc
  obtain ⟨hp, hx, hy⟩ := hload.restores htidy he (hregs .x (by decide)) (hregs .y (by decide))
  have hsp := hpushed.sp_of_pulled hpulled he htidy.forced (by split <;> decide)
  refine ⟨t, u, henter, hrti, hpc, hp, hsp, hx, hy, fun hn => ?_⟩
  rw [hpbr, he, hn, if_neg (by decide), h4 hn]

/-- Settles O17: with no ABORT and no overflow pin, what is left of the boundary while Running. -/
theorem boundaryOrder : Obligations.BoundaryOrder := by
  intro s hrun habort hpin
  rw [step_of_running hrun, boundaryRunning_unasserted _ habort hpin]
  simp only [State.latchInput_nmiPending, Bool.or_eq_true, State.latchInput_irqLine, State.flag_latchInput, Bool.and_eq_true,
    Bool.not_eq_true']
  rfl

/-- Settles O16: RESET comes first, and leaves the registers of `resetRegisters` with PC from the vector. -/
theorem resetEventValues : Obligations.ResetEventValues := by
  intro s hreset h0 h1
  obtain ⟨hrun, hnmi, he, hx, hy, hsp, hd, hdbr, hpbr, -⟩ := s.latchInput.resetRegisters_spec
  obtain ⟨hfm, hfx, hfi, hfd⟩ := resetP_flags
  have hflag {f : Flag} := State.flag_resetRegisters s.latchInput (f := f)
  refine ⟨_, (step_of_reset hreset).trans (resetEvent_of_backed h0 h1), hrun, hnmi, he, ?m, ?x, hx, hy, hsp, hd, hdbr, hpbr,
    ?i, fun hv => ?d, rfl, fun a _ => s.latchInput.cell_resetRegisters a, s.latchInput.resetRegisters_cfg⟩
  case m => exact (hflag (by decide) (by simp)).trans hfm
  case x => exact (hflag (by decide) (by simp)).trans hfx
  case i => exact (hflag (by decide) (by simp)).trans hfi
  case d => exact (hflag (by decide) fun _ => hv).trans hfd
end

section
/-! PROOF. Miscellaneous instructions (47_miscellaneous.md): NOP, WDM, WAI and STP; XCE by one equation for its flags and one
for each register; one step of a block move; and a whole MVN, by an invariant over its executions. -/

namespace Sys2Proof.Machine

/-! ## NOP, WDM, WAI and STP (R325 to R327; 46_interrupt_instructions.md R313) -/

theorem Frame.flagsBut {rs : List Reg} {fs : List Flag} {as : List Addr} {s t : State} (h : Frame rs fs as s t) :
    FlagsBut fs s t := h.2.1

theorem frame_run (s : State) (r : RunState) : Frame [.run] [] [] s { s with run := r } :=
  ⟨fun q hq => by cases q <;> first | rfl | exact absurd (List.mem_singleton_self _) hq, fun _ _ => rfl, fun _ _ => rfl⟩

/-- WAI and STP: the run state, and PC past the one byte. -/
theorem exec_toRun {i : Instr} {s : State} {r : RunState} (hexec : exec i s = .next (({ s with run := r } : State).advance 1))
    (hlen : (encode s.wm s.wx i).length = 1) :
    ∃ t, exec i s = .next t ∧ t.run = r ∧ Frame [.pc, .run] [] [] s t ∧ Advances i s t :=
  ⟨_, hexec, rfl, ((frame_run s r).then_advance 1).weaken (by simp) (fun _ => id) fun _ => id, advances_advance hlen rfl⟩

/-! ## XCE (R322) -/

/-- XCE into emulation mode. -/
theorem State.exchangeCE_of_carry {s : State} (h : s.flag .c = true) :
    s.exchangeCE =
      let t := (((({ s with e := true } : State).setFlag .c s.e).setFlag .m true).setFlag .x true).clearIdxHigh
      { t with sp := wordOf (lowByte s.sp) 0x01 } := by
  rw [State.exchangeCE, h]; rfl

/-- XCE into native mode, from either mode. -/
theorem State.exchangeCE_of_no_carry {s : State} (h : s.flag .c = false) :
    s.exchangeCE =
      let t := ({ s with e := false } : State).setFlag .c s.e
      if s.e then (t.setFlag .m true).setFlag .x true else t := by
  rw [State.exchangeCE, h]; rfl

/-- The flags after XCE: c is the old e, and m and x are 1 but from native mode to native mode. -/
theorem State.flag_exchangeCE (s : State) (f : Flag) :
    s.exchangeCE.flag f =
      if f = .c then s.e else if f = .m ∨ f = .x then s.flag .c || s.e || s.flag f else s.flag f := by
  cases hc : s.flag .c
  case true =>
    have hflag : s.exchangeCE.flag f =
        (((({ s with e := true } : State).setFlag .c s.e).setFlag .m true).setFlag .x true).flag f := by
      rw [exchangeCE_of_carry hc]; rfl
    rw [hflag, flag_setFlag, flag_setFlag, flag_setFlag]
    cases f <;> rfl
  case false =>
    rw [exchangeCE_of_no_carry hc]
    cases he : s.e
    case true => simp only [if_true, flag_setFlag]; cases f <;> rfl
    case false => simp only [Bool.false_eq_true, if_false, flag_setFlag]; cases f <;> simp <;> rfl

/-- The registers after XCE: emulation mode forces X, Y and S, native mode keeps them. -/
theorem State.exchangeCE_regs (s : State) :
    s.exchangeCE.e = s.flag .c ∧ s.exchangeCE.x = (if s.flag .c then trunc .w8 s.x else s.x) ∧
      s.exchangeCE.y = (if s.flag .c then trunc .w8 s.y else s.y) ∧
      s.exchangeCE.sp = if s.flag .c then wordOf (lowByte s.sp) 0x01 else s.sp := by
  cases hc : s.flag .c
  case true => rw [exchangeCE_of_carry hc]; exact ⟨rfl, rfl, rfl, rfl⟩
  case false => rw [exchangeCE_of_no_carry hc]; cases s.e <;> exact ⟨rfl, rfl, rfl, rfl⟩

/-- XCE writes nothing but these. -/
theorem State.exchangeCE_eq (s : State) :
    s.exchangeCE = { s with e := s.exchangeCE.e, x := s.exchangeCE.x, y := s.exchangeCE.y, sp := s.exchangeCE.sp,
                            p := s.exchangeCE.p } := by
  cases hc : s.flag .c
  case true => rw [exchangeCE_of_carry hc]; rfl
  case false => rw [exchangeCE_of_no_carry hc]; cases s.e <;> rfl

theorem frame_exchangeCE (s : State) : Frame [.x, .y, .sp, .e] [.m, .x, .c] [] s s.exchangeCE := by
  refine ⟨fun q hq => ?regs, fun f hf => ?flags, .of_mem s.exchangeCE_cfg (by rw [s.exchangeCE_eq])⟩
  case regs => rw [s.exchangeCE_eq]; cases q <;> first | rfl | simp at hq
  case flags =>
    obtain ⟨hm, hx, hc⟩ : f ≠ .m ∧ f ≠ .x ∧ f ≠ .c := by simpa using hf
    rw [s.flag_exchangeCE, if_neg hc, if_neg (not_or.2 ⟨hm, hx⟩)]

/-! ## One step of a block move (R320, R321) -/

theorem State.srcBank_eq_moveFrom (s : State) (o1 o2 : Byte) : s.srcBank o1 o2 = s.moveFrom o1 o2 := by
  unfold State.srcBank State.moveFrom; cases s.cfg.blockMoveOrder <;> rfl

theorem State.dstBank_eq_moveTo (s : State) (o1 o2 : Byte) : s.dstBank o1 o2 = s.moveTo o1 o2 := by
  unfold State.dstBank State.moveTo; cases s.cfg.blockMoveOrder <;> rfl

/-- What one step of a block move does: the byte `v` to the destination, `n` added to X and Y at WX, C counted down, DBR the
destination bank, PC past the instruction when C was 0. -/
structure MovesByte (n : Nat) (o1 o2 v : Byte) (s t : State) : Prop where
  stored : Stored s t (addrOf (s.moveTo o1 o2) s.y) v
  x : t.x.toNat = (s.x.toNat + n) % modulus s.wx
  y : t.y.toNat = (s.y.toNat + n) % modulus s.wx
  c : t.c.toNat = (s.c.toNat + 65535) % 65536
  dbr : t.dbr = s.moveTo o1 o2
  pc : t.pc = if s.c = 0 then s.pc + 3 else s.pc
  frame : Frame [.c, .x, .y, .dbr, .pc] [] [addrOf (s.moveTo o1 o2) s.y] s t

/-- C wraps when it was 0. -/
theorem sub_one_eq_ffff_iff (c : Word) : c - 1 = 0xFFFF ↔ c = 0 := by
  rw [show (0xFFFF : Word) = 0 - 1 from rfl, sub_left_inj]

/-- The two ends of the register step in one: PC moves past the instruction only when C wraps. -/
theorem State.blockMoveRegs_eq (s : State) (delta : Word) (dst : Byte) :
    s.blockMoveRegs delta dst =
      { s with x := trunc s.wx (s.x + delta), y := trunc s.wx (s.y + delta), c := s.c - 1, dbr := dst,
               pc := if s.c = 0 then s.pc + 3 else s.pc } := by
  unfold State.blockMoveRegs
  by_cases hc : s.c = 0
  · simp only [sub_one_eq_ffff_iff, hc, if_true]; rfl
  · simp only [sub_one_eq_ffff_iff, hc, if_false]; rfl

theorem frame_blockMoveRegs (s : State) (delta : Word) (dst : Byte) :
    Frame [.c, .x, .y, .dbr, .pc] [] [] s (s.blockMoveRegs delta dst) := by
  rw [s.blockMoveRegs_eq]
  exact ⟨fun q hq => by cases q <;> first | rfl | simp at hq, fun _ _ => rfl, fun _ _ => rfl⟩

theorem toNat_trunc_add (w : Width) (v delta : Word) :
    (trunc w (v + delta)).toNat = (v.toNat + delta.toNat) % modulus w := by
  rw [toNat_trunc, BitVec.toNat_add]
  cases w <;> simp only [modulus_w8, modulus_w16] <;> omega

theorem blockMove_spec {delta : Word} {o1 o2 v : Byte} {s s1 : State}
    (hread : read8 (addrOf (s.moveFrom o1 o2) s.x) s = .ok v s1) (hdev : NotDevice s (addrOf (s.moveTo o1 o2) s.y)) :
    ∃ t, blockMove delta o1 o2 s = .next t ∧ MovesByte delta.toNat o1 o2 v s t := by
  have hdraws := read8_onlyDraws hread
  have hexec : blockMove delta o1 o2 s = .next ((stored8 (addrOf (s.moveTo o1 o2) s.y) v s1).blockMoveRegs delta
      (s.moveTo o1 o2)) := by
    rw [blockMove, s.srcBank_eq_moveFrom, s.dstBank_eq_moveTo, hread, Access.andThen_ok,
      write8_of_notDevice v (hdraws.notDevice.2 hdev), Access.andThen_ok]
  have hstored : Stored s (stored8 (addrOf (s.moveTo o1 o2) s.y) v s1) (addrOf (s.moveTo o1 o2) s.y) v := by
    have h := stored_stored8 (addrOf (s.moveTo o1 o2) s.y) v s1
    rwa [Stored, hdraws.cfg, State.cell_congr hdraws.cfg hdraws.mem] at h
  have hwrite : Frame [] [] [addrOf (s.moveTo o1 o2) s.y] s (stored8 (addrOf (s.moveTo o1 o2) s.y) v s1) :=
    hdraws.frame ⟨(onlyMem_stored8 _ _ _).regsBut [], (onlyMem_stored8 _ _ _).flagsBut [], memBut_stored8 _ _ _⟩
  refine ⟨_, hexec, ?_⟩
  generalize stored8 (addrOf (s.moveTo o1 o2) s.y) v s1 = u at hstored hwrite
  have hregs := frame_blockMoveRegs u delta (s.moveTo o1 o2)
  have hx : u.x = s.x := hwrite.reg .x (by decide)
  have hy : u.y = s.y := hwrite.reg .y (by decide)
  have hc : u.c = s.c := hwrite.reg .c (by decide)
  have hpc : u.pc = s.pc := hwrite.reg .pc (by decide)
  have hwx : u.wx = s.wx :=
    State.wx_congr (hwrite.reg .cfg (by decide)) (hwrite.reg .e (by decide)) (hwrite.flag .x (by decide))
  constructor
  case stored => exact (hregs.memBut _ (by simp)).trans hstored
  case frame => exact hwrite.trans hregs
  all_goals rw [u.blockMoveRegs_eq]
  case x => rw [hx, hwx]; exact toNat_trunc_add ..
  case y => rw [hy, hwx]; exact toNat_trunc_add ..
  case c => rw [hc]; exact (Nat.mod_eq_of_lt (s.c - 1).isLt).symm.trans (toNat_sub_one_mod s.c .w16)
  case pc => rw [hc, hpc]

/-! ## A whole MVN (R320) -/

/-- One more execution is one at the end. -/
theorem execRepeat_add_one {i : Instr} {s u : State} (n : Nat) (h : execRepeat i n s = .next u) :
    execRepeat i (n + 1) s = exec i u := by
  induction n generalizing s with
  | zero =>
    obtain rfl : s = u := Host.Outcome.next.inj h
    rw [execRepeat]
    cases exec i s <;> rfl
  | succ n ih =>
    rw [execRepeat] at h ⊢
    cases hexec : exec i s with
    | next t => rw [hexec] at h; exact ih h
    | fault r => rw [hexec] at h; cases h
    | refused r => rw [hexec] at h; cases h

/-- Where no device stands MVN moves a byte, from RAM the one that memory holds. -/
theorem exec_mvn {o1 o2 : Byte} {s : State} (h : NoDevice s.cfg) :
    ∃ t v, exec (.mvn o1 o2) s = .next t ∧ MovesByte 1 o1 o2 v s t ∧
      (kindAt s.cfg (addrOf (s.moveFrom o1 o2) s.x) = .ram → v = s.cell (addrOf (s.moveFrom o1 o2) s.x)) := by
  obtain ⟨v, s1, hread⟩ := read8_ok_of_notDevice (h.notDevice (addrOf (s.moveFrom o1 o2) s.x))
  obtain ⟨t, hexec, hmoves⟩ := blockMove_spec (delta := 1) hread (h.notDevice _)
  refine ⟨t, v, hexec, hmoves, fun hram => ?_⟩
  rw [read8_of_backed (.inl hram)] at hread
  cases hread
  rfl

/-- How the registers stand after `n` executions of MVN, PC being on it still. -/
structure MvnRegs (n : Nat) (s u : State) : Prop where
  c : u.c.toNat = s.c.toNat - n
  x : u.x.toNat ≡ s.x.toNat + n [MOD modulus s.wx]
  y : u.y.toNat ≡ s.y.toNat + n [MOD modulus s.wx]
  regs : RegsBut [.c, .x, .y, .dbr] s u
  flags : FlagsBut [] s u

theorem MvnRegs.zero (s : State) : MvnRegs 0 s s where
  c := rfl
  x := rfl
  y := rfl
  regs r _ := by cases r <;> rfl
  flags _ _ := rfl

section
variable {n : Nat} {o1 o2 v : Byte} {s u t : State}

theorem MvnRegs.wx (h : MvnRegs n s u) : u.wx = s.wx :=
  State.wx_congr (h.regs .cfg (by decide)) (h.regs .e (by decide)) (h.flags .x (by decide))

theorem MvnRegs.moveFrom (h : MvnRegs n s u) : u.moveFrom o1 o2 = s.moveFrom o1 o2 := by
  have hc : u.cfg = s.cfg := h.regs .cfg (by decide)
  rw [State.moveFrom, hc]; rfl

theorem MvnRegs.moveTo (h : MvnRegs n s u) : u.moveTo o1 o2 = s.moveTo o1 o2 := by
  have hc : u.cfg = s.cfg := h.regs .cfg (by decide)
  rw [State.moveTo, hc]; rfl

/-- X after the next execution. -/
theorem MvnRegs.next_x (h : MvnRegs n s u) (hm : MovesByte 1 o1 o2 v u t) :
    t.x.toNat = (s.x.toNat + n + 1) % modulus s.wx := by
  rw [hm.x, h.wx]; exact h.x.add_right 1

theorem MvnRegs.next_y (h : MvnRegs n s u) (hm : MovesByte 1 o1 o2 v u t) :
    t.y.toNat = (s.y.toNat + n + 1) % modulus s.wx := by
  rw [hm.y, h.wx]; exact h.y.add_right 1

/-- While C is not 0 an execution stays on the instruction. -/
theorem MvnRegs.succ (h : MvnRegs n s u) (hm : MovesByte 1 o1 o2 v u t) (hn : n < s.c.toNat) : MvnRegs (n + 1) s t where
  c := by
    have := s.c.isLt
    rw [hm.c, h.c]; omega
  x := by rw [h.next_x hm]; exact Nat.mod_modEq _ _
  y := by rw [h.next_y hm]; exact Nat.mod_modEq _ _
  regs := h.regs.trans fun r hr => by
    have hc : u.c ≠ 0 := fun h0 => by
      have hzero : u.c.toNat = 0 := by rw [h0]; rfl
      have := h.c
      omega
    by_cases hpc : r = .pc
    · subst hpc; exact hm.pc.trans (if_neg hc)
    · exact hm.frame.reg r (by simpa [hpc] using hr)
  flags := h.flags.trans hm.frame.flagsBut

end

/-- The place of byte `k` of the source block. -/
def State.moveSrc (s : State) (o1 o2 : Byte) (k : Nat) : Addr :=
  addrOf (s.moveFrom o1 o2) (BitVec.ofNat 16 ((s.x.toNat + k) % modulus s.wx))

/-- The place of byte `k` of the destination block. -/
def State.moveDst (s : State) (o1 o2 : Byte) (k : Nat) : Addr :=
  addrOf (s.moveTo o1 o2) (BitVec.ofNat 16 ((s.y.toNat + k) % modulus s.wx))

/-- Both blocks are in RAM, and no byte of one is a byte of the other. -/
structure BlocksApart (o1 o2 : Byte) (s : State) : Prop where
  narrow : s.idxNarrow = true
  ram : ∀ k ≤ s.c.toNat, kindAt s.cfg (s.moveSrc o1 o2 k) = .ram ∧ kindAt s.cfg (s.moveDst o1 o2 k) = .ram
  apart : ∀ j ≤ s.c.toNat, ∀ k ≤ s.c.toNat, busAddr s.cfg (s.moveSrc o1 o2 j) ≠ busAddr s.cfg (s.moveDst o1 o2 k)

/-- After `n` executions of MVN the first `n` bytes are copied, nothing else of memory has changed, and X and Y are the
offsets of the next byte. -/
structure MvnCopied (n : Nat) (o1 o2 : Byte) (s u : State) : Prop where
  copied : ∀ k < n, u.cell (s.moveDst o1 o2 k) = s.cell (s.moveSrc o1 o2 k)
  mem : MemBut ((List.range n).map (s.moveDst o1 o2)) s u
  x : u.x.toNat < modulus s.wx
  y : u.y.toNat < modulus s.wx

/-- An index register is a number of its width. -/
theorem idx_lt_of_idxNarrow {s : State} (h : s.idxNarrow = true) : s.x.toNat < modulus s.wx ∧ s.y.toNat < modulus s.wx := by
  cases hw : s.wx
  case w16 => exact ⟨s.x.isLt, s.y.isLt⟩
  case w8 =>
    obtain ⟨hx, hy⟩ := (idxNarrow_iff s).1 h ((wx_eq_w8_iff s).1 hw)
    exact ⟨toNat_lt_of_highByte hx, toNat_lt_of_highByte hy⟩

theorem MvnCopied.zero {o1 o2 : Byte} {s : State} (h : s.idxNarrow = true) : MvnCopied 0 o1 o2 s s where
  copied k hk := absurd hk (Nat.not_lt_zero k)
  mem _ _ := rfl
  x := (idx_lt_of_idxNarrow h).1
  y := (idx_lt_of_idxNarrow h).2

theorem addrOf_eq_of_modEq {w : Width} {b : Byte} {v : Word} {n : Nat} (h : v.toNat ≡ n [MOD modulus w])
    (hv : v.toNat < modulus w) : addrOf b v = addrOf b (BitVec.ofNat 16 (n % modulus w)) := by
  rw [← h, Nat.mod_eq_of_lt hv, BitVec.ofNat_toNat, BitVec.setWidth_eq]

/-- The bus keeps the offsets of one bank apart, also where it shows every bank as bank 0. -/
theorem busAddr_addrOf_inj {cfg : Config} {b : Byte} {v w : Word} (h : busAddr cfg (addrOf b v) = busAddr cfg (addrOf b w)) :
    v = w := by
  unfold busAddr at h
  have hoff := congrArg Addr.offset h
  split at hoff <;> simpa using hoff

/-- A block longer than its page comes round to the same bytes on both sides at once. -/
theorem State.moveSrc_eq_of_moveDst {o1 o2 : Byte} {s : State} {j k : Nat}
    (h : busAddr s.cfg (s.moveDst o1 o2 j) = busAddr s.cfg (s.moveDst o1 o2 k)) :
    s.moveSrc o1 o2 j = s.moveSrc o1 o2 k := by
  have hmod : modulus s.wx ≤ 65536 := by cases s.wx <;> decide
  have hlt (n : Nat) : n % modulus s.wx < 65536 := (Nat.mod_lt n (modulus_pos s.wx)).trans_le hmod
  have hoff := congrArg BitVec.toNat (busAddr_addrOf_inj h)
  rw [BitVec.toNat_ofNat, BitVec.toNat_ofNat, Nat.mod_eq_of_lt (hlt _), Nat.mod_eq_of_lt (hlt _)] at hoff
  have hjk : j ≡ k [MOD modulus s.wx] := Nat.ModEq.add_left_cancel' s.y.toNat hoff
  rw [State.moveSrc, hjk.add_left s.x.toNat]; rfl

theorem State.cell_of_busAddr {s : State} {a b : Addr} (h : busAddr s.cfg a = busAddr s.cfg b) : s.cell a = s.cell b := by
  rw [State.cell, h]; rfl

section
variable {n : Nat} {o1 o2 v : Byte} {s u t : State}

/-- One more execution copies one more byte: its source is not among the bytes copied to, so it holds what it held. -/
theorem MvnCopied.succ (h : MvnCopied n o1 o2 s u) (hr : MvnRegs n s u) (hb : BlocksApart o1 o2 s) (hn : n ≤ s.c.toNat)
    (hm : MovesByte 1 o1 o2 v u t)
    (hv : kindAt u.cfg (addrOf (u.moveFrom o1 o2) u.x) = .ram → v = u.cell (addrOf (u.moveFrom o1 o2) u.x)) :
    MvnCopied (n + 1) o1 o2 s t := by
  obtain ⟨hsram, hdram⟩ := hb.ram n hn
  have hcfg : u.cfg = s.cfg := hr.regs .cfg (by decide)
  have htcfg : t.cfg = s.cfg := (hm.frame.reg .cfg (by decide)).trans hcfg
  have hsrc : addrOf (u.moveFrom o1 o2) u.x = s.moveSrc o1 o2 n := by
    rw [hr.moveFrom]; exact addrOf_eq_of_modEq hr.x h.x
  have hdst : addrOf (u.moveTo o1 o2) u.y = s.moveDst o1 o2 n := by
    rw [hr.moveTo]; exact addrOf_eq_of_modEq hr.y h.y
  have hvalue : v = s.cell (s.moveSrc o1 o2 n) := by
    rw [hsrc, hcfg] at hv
    refine (hv hsram).trans (h.mem _ ?_)
    simp only [List.mem_map, List.mem_range]
    rintro _ ⟨k, hk, rfl⟩
    exact (hb.apart n hn k (by omega)).symm
  have hstored : t.cell (s.moveDst o1 o2 n) = s.cell (s.moveSrc o1 o2 n) := by
    have hst := hm.stored
    rw [Stored, hdst, hcfg, if_pos hdram] at hst
    exact hst.trans hvalue
  have hmem : MemBut [s.moveDst o1 o2 n] u t := hdst ▸ hm.frame.memBut
  constructor
  case copied =>
    intro k hk
    by_cases hsame : busAddr s.cfg (s.moveDst o1 o2 n) = busAddr s.cfg (s.moveDst o1 o2 k)
    · rw [← State.cell_of_busAddr (htcfg ▸ hsame), hstored, State.moveSrc_eq_of_moveDst hsame]
    · have hne : k ≠ n := fun hkn => hsame (by rw [hkn])
      exact (hmem _ (by simpa [hcfg] using hsame)).trans (h.copied k (by omega))
  case mem =>
    intro a ha
    rw [List.range_succ, List.map_append, List.forall_mem_append] at ha
    exact (hmem a (by simpa [hcfg] using ha.2)).trans (h.mem a ha.1)
  case x => rw [hr.next_x hm]; exact Nat.mod_lt _ (modulus_pos _)
  case y => rw [hr.next_y hm]; exact Nat.mod_lt _ (modulus_pos _)

end

/-- `n` executions of MVN, up to the one that finds C at 0. -/
theorem execRepeat_mvn {o1 o2 : Byte} {s : State} (hdev : NoDevice s.cfg) :
    ∀ n ≤ s.c.toNat, ∃ u, execRepeat (.mvn o1 o2) n s = .next u ∧ MvnRegs n s u ∧
      (BlocksApart o1 o2 s → MvnCopied n o1 o2 s u) := by
  intro n
  induction n with
  | zero => exact fun _ => ⟨s, rfl, .zero s, fun hb => .zero hb.narrow⟩
  | succ n ih =>
    intro hn
    obtain ⟨u, hrun, hregs, hcopied⟩ := ih (by omega)
    have hcfg : u.cfg = s.cfg := hregs.regs .cfg (by decide)
    obtain ⟨t, v, hexec, hmoves, hv⟩ := exec_mvn (o1 := o1) (o2 := o2) (hcfg ▸ hdev)
    exact ⟨t, (execRepeat_add_one n hrun).trans hexec, hregs.succ hmoves hn,
      fun hb => (hcopied hb).succ hregs hb (by omega) hmoves hv⟩

end Sys2Proof.Machine

open Sys2Proof Sys2Proof.Machine

/-- Settles O57: the four lengths, and for WAI and STP the run state. -/
theorem nopWdmWaiStp : Obligations.NopWdmWaiStp := by
  intro s sig
  refine ⟨?nop, ?wdm, exec_toRun rfl rfl, exec_toRun rfl rfl⟩
  case nop => exact ⟨_, rfl, frame_pc s _, advances_advance rfl rfl⟩
  case wdm => exact ⟨_, rfl, frame_pc s _, advances_advance rfl rfl⟩

/-- Settles O60: each clause is read off the flags and the registers of `exchangeCE`. -/
theorem exchangeCarryAndEmulation : Obligations.ExchangeCarryAndEmulation := by
  intro s
  have hflag := s.flag_exchangeCE
  obtain ⟨he, hx, hy, hsp⟩ := s.exchangeCE_regs
  refine ⟨_, rfl, he, hflag .c, fun h => ?forced, fun h => ?emulation, fun h => ?native, fun h h' => ?kept,
    (frame_exchangeCE s).then_advance 1, advances_advance rfl ((frame_exchangeCE s).reg .pc (by decide))⟩
  all_goals rw [State.advance_e, he] at h
  case forced =>
    have hforced : (s.flag .c || s.e) = true := by simpa using h
    constructor
    · rw [State.flag_advance, hflag, if_neg (by decide), if_pos (.inl rfl), hforced, Bool.true_or]
    · rw [State.flag_advance, hflag, if_neg (by decide), if_pos (.inr rfl), hforced, Bool.true_or]
  case emulation =>
    rw [State.advance_x, State.advance_y, State.advance_sp, hx, hy, hsp, h, if_pos rfl, if_pos rfl, if_pos rfl]
    exact ⟨toNat_trunc .w8 s.x, toNat_trunc .w8 s.y, toNat_wordOf _ _⟩
  case native =>
    rw [State.advance_x, State.advance_y, State.advance_sp, hx, hy, hsp, h]
    exact ⟨rfl, rfl, rfl⟩
  case kept =>
    intro f hf
    rw [State.flag_advance, hflag, if_neg (by simpa using hf), h, h', Bool.or_false, Bool.false_or, ite_self]

/-- Settles O58: MVN and MVP are one move, by 1 and by -1. -/
theorem blockMoveStep : Obligations.BlockMoveStep := by
  intro s s1 o1 o2 v hread hdev e he
  obtain ⟨delta, hexec, hdelta⟩ : ∃ delta : Word, exec e.1 s = blockMove delta o1 o2 s ∧ delta.toNat = e.2 := by
    simp only [List.mem_cons, List.not_mem_nil, or_false] at he
    obtain rfl | rfl := he
    · exact ⟨1, rfl, rfl⟩
    · exact ⟨0xFFFF, rfl, rfl⟩
  obtain ⟨t, hnext, hmoves⟩ := blockMove_spec (delta := delta) hread hdev
  rw [hdelta] at hmoves
  exact ⟨t, hexec.trans hnext, hmoves.stored, hmoves.x, hmoves.y, hmoves.c, hmoves.dbr, hmoves.pc, hmoves.frame⟩

/-- Settles O59: C executions stay on the instruction and bring C to 0; one more leaves it. -/
theorem blockMoveRuns : Obligations.BlockMoveRuns := by
  intro s o1 o2 hdev
  refine ⟨fun n hn => ?stays, ?leaves⟩
  case stays =>
    obtain ⟨u, hrun, hregs, -⟩ := execRepeat_mvn hdev n hn
    exact ⟨u, hrun, hregs.regs .pc (by decide), hregs.c⟩
  case leaves =>
    obtain ⟨u, hrun, hregs, hcopied⟩ := execRepeat_mvn hdev s.c.toNat le_rfl
    have hcfg : u.cfg = s.cfg := hregs.regs .cfg (by decide)
    have hpc : u.pc = s.pc := hregs.regs .pc (by decide)
    have hzero : u.c = 0 := BitVec.eq_of_toNat_eq (by rw [hregs.c, Nat.sub_self]; rfl)
    obtain ⟨t, v, hexec, hmoves, hv⟩ := exec_mvn (o1 := o1) (o2 := o2) (hcfg ▸ hdev)
    refine ⟨t, (execRepeat_add_one _ hrun).trans hexec, BitVec.eq_of_toNat_eq ?c, ?pc, hmoves.dbr.trans hregs.moveTo,
      hregs.next_x hmoves, hregs.next_y hmoves, (hregs.regs.weaken (by simp)).trans hmoves.frame.regsBut,
      hregs.flags.trans hmoves.frame.flagsBut, ?copied⟩
    case c => rw [hmoves.c, hzero]; rfl
    case pc => rw [hmoves.pc, if_pos hzero, hpc]
    case copied =>
      intro _ _ hnarrow hram hapart k hk
      have hb : BlocksApart o1 o2 s := ⟨hnarrow, hram, hapart⟩
      exact ((hcopied hb).succ hregs hb le_rfl hmoves hv).copied k (by omega)
end
